-- ==== Sys2Proof/Word.lean ====
section
/-! DEFINITION. The values the CES block computes with (spec/00_scope.md R7, R8; spec/10_state.md R15): bits and bit
sequences, the two sample levels of a waveform, IQ samples, the five-bit CRC5 register. The block has no fixed word
width, so there is no machine word: counts are natural numbers, samples are pairs of exact rationals. -/

namespace Sys2Proof

/-- One bit (R7): `false` is 0, `true` is 1. -/
abbrev Bit := Bool

/-- A bit sequence (R7): element 0 is the first bit sent and the most significant bit of its field. -/
abbrev BitSeq := List Bit

/-- A sample level of a transmitted waveform (R8): `H` high (on), `L` low (off). -/
inductive Level where
  | H
  | L
deriving DecidableEq, Repr, Inhabited

/-- A waveform (R8): a finite sequence of sample levels, first sample first. -/
abbrev Waveform := List Level

/-- An IQ sample (R8, R31, R33): an in-phase and a quadrature part, each an exact rational. -/
structure IQ where
  re : Rat
  im : Rat
deriving DecidableEq, Repr, Inhabited

/-- The IQ sample `0+0j`. -/
def IQ.zero : IQ := ⟨0, 0⟩

/-- A sequence of IQ samples: a capture, a Frame or a DCWindow (R7). -/
abbrev Samples := List IQ

/-- The CRC5 register `(c0, c1, c2, c3, c4)` of R15. -/
structure Crc5Reg where
  c0 : Bit
  c1 : Bit
  c2 : Bit
  c3 : Bit
  c4 : Bit
deriving DecidableEq, Repr, Inhabited

end Sys2Proof
end

