-- ==== Sys2Proof/Config.lean ====
section
/-! DEFINITION. What an implementation fixes and the spec leaves open (spec/00_scope.md R5, spec/93_implementation_defined.md
Part 1): the model parameters as plain data with the spec's defaults, and, as constants without a body, every other CRC16
function, every other sample arithmetic, and the content of the working registers outside an operation. -/

namespace Sys2Proof

/-- The layout of the QueryAdjust frame, parameter `QADJ_LAYOUT` of R5 (R49, U3). -/
inductive QadjLayout where
  | gen2_9
  | table_7
deriving DecidableEq, Repr, Inhabited

/-- Which CRC16 function the block has, parameter `CRC16` of R5 (R70, U1): the default of R71, or any other one. -/
inductive Crc16Choice where
  | gen2
  | impl (n : Nat)
deriving DecidableEq, Repr, Inhabited

/-- Which arithmetic on samples the block has, parameter `NUMERICS` of R5 (R202, U22): the exact default, or any other one. -/
inductive NumericsChoice where
  | exact
  | impl (n : Nat)
deriving DecidableEq, Repr, Inhabited

/-- The model parameters of R5. `wPtr` and `capMax` are `none` where there is no bound (D11, D27). -/
structure Params where
  crc16      : Crc16Choice
  qadjLayout : QadjLayout
  tailMarker : Bool
  numerics   : NumericsChoice
  aHigh      : Rat
  aLow       : Rat
  wPtr       : Option Nat
  capMax     : Option Nat
deriving DecidableEq, Repr, Inhabited

/-- The defaults of R5: those the test vectors of spec/95_test_vectors.md are computed under. PRESUMED where the spec itself
borrows from general knowledge (`CRC16`, log 2; `QADJ_LAYOUT`, log 3). -/
def Params.default : Params :=
  { crc16 := .gen2, qadjLayout := .gen2_9, tailMarker := false, numerics := .exact,
    aHigh := 1, aLow := 0, wPtr := none, capMax := none }

/-- The results `EXTRACT` and `SYNC` compute from samples (R202 (c)), each as a whole, so that precision, rounding and the order
of summation all lie inside the parameter `NUMERICS` (U22): the low test of a sample (R131), correlation value `i` of a search
window (R148), the magnitude by which correlation values are compared (R148, R150), and the mean of the samples under the ones of
the reference (R152). DESIGN CHOICE of what the parameter ranges over, log 6. -/
structure Numerics where
  low  : IQ → Bool
  corr : Samples → Nat → IQ
  mag  : IQ → Rat
  mean : Samples → IQ
deriving Inhabited

/-- The working registers of R10(d): CRC5 (R15), CRC16 (R16), the frame bit buffer (R17), the sequencing counters (R20), the
synchronizer accumulators (R27). Between operations nothing reads them. -/
structure Work where
  crc5        : Crc5Reg
  crc16       : BitVec 16
  fb          : BitSeq
  crcIndex    : Nat
  frameIndex  : Nat
  sampleIndex : Nat
  scanIndex   : Nat
  lag         : Nat
  corrSum     : IQ
  peakMag     : Rat
  peakLag     : Nat
  gainSum     : IQ
deriving DecidableEq, Repr, Inhabited

namespace Config

/-- Every CRC16 function other than the default (R70: any total function to 16 bits). No body: a claim holds for all of them. -/
opaque crc16Impl : Nat → BitSeq → BitVec 16

/-- Every arithmetic on samples other than the exact default (R202). No body: a claim holds for all of them. -/
opaque numericsImpl : Nat → Numerics

/-- FREE VALUE: the content of the working registers after an operation (R10, U24: any value), one for each value of the
counter `State.fresh`. No body. -/
opaque freeWork : Nat → Work

end Config
end Sys2Proof
end

