-- ==== Sys2Proof/Syntax.lean ====
section
/-! DEFINITION. What a host can ask of the block: the operation set of spec/30_encoding.md R60 with the operand carriers of
R61, the air-interface frame formats of R45 to R49 as syntax, and the encoded forms both travel in (a request: a 4-bit
selector with named operands beside it; a frame: its bit sequence). One constructor of `Instr` per row of
spec/opcode_table.json. -/

namespace Sys2Proof

/-! ## Field values of the air-interface frames (R50, R51, R52) -/

/-- The divide ratio: `8` or `64/3` (R50). -/
inductive DivideRatio where
  | dr8
  | dr64_3
deriving DecidableEq, Repr, Inhabited

/-- The M field: 1, 2, 4 or 8 (R50). -/
inductive MField where
  | m1
  | m2
  | m4
  | m8
deriving DecidableEq, Repr, Inhabited

/-- The Sel field: `all`, `~sl` or `sl` (R50). -/
inductive SelField where
  | all
  | notSl
  | sl
deriving DecidableEq, Repr, Inhabited

/-- The Session field: `s0` to `s3` (R50). -/
inductive Session where
  | s0
  | s1
  | s2
  | s3
deriving DecidableEq, Repr, Inhabited

/-- The Target field of a Query: `A` or `B` (R50). -/
inductive QueryTarget where
  | a
  | b
deriving DecidableEq, Repr, Inhabited

/-- The Target field of a Select (R51). -/
inductive SelectTarget where
  | invS0
  | invS1
  | invS2
  | invS3
  | sl
deriving DecidableEq, Repr, Inhabited

/-- The MemBank field of a Select (R51). -/
inductive MemBank where
  | fileType
  | epc
  | tid
  | file0
deriving DecidableEq, Repr, Inhabited

/-- The UpDn field of a QueryAdjust (R52). -/
inductive UpDn where
  | up
  | keep
  | down
deriving DecidableEq, Repr, Inhabited

/-- The fields of a Query frame before its check bits (R46): CommandParams that have passed validation. -/
structure QueryFields where
  dr      : DivideRatio
  m       : MField
  trext   : Bool
  sel     : SelField
  session : Session
  target  : QueryTarget
  q       : BitVec 4
deriving DecidableEq, Repr, Inhabited

/-- The fields of a Select frame before its check bits (R48). The Length field is the number of mask bits; R48's
`length` is at most 255, which `WellFormed` checks. -/
structure SelectFields where
  target   : SelectTarget
  action   : BitVec 3
  membank  : MemBank
  pointer  : Nat
  mask     : BitSeq
  truncate : Bool
deriving DecidableEq, Repr, Inhabited

/-! ## Operands -/

/-- The names operands travel under (R60, R61). -/
inductive OperandName where
  | rate
  | pwD
  | bits
  | value
  | blf
  | dr
  | m
  | trext
  | sel
  | session
  | target
  | q
  | action
  | membank
  | pointer
  | length
  | mask
  | truncate
  | updn
  | nMaxGap
  | nT1
  | nRn16
  | frame
deriving DecidableEq, Repr, Inhabited

/-- The `frame` operand of `SYNC`: a host-supplied sequence of samples, or an entry of the frame store
(spec/opcode_table.json row SYNC, spec/20_memory.md R30(c)). -/
inductive FrameArg where
  | given (samples : Samples)
  | stored (index : Nat)
deriving DecidableEq, Repr, Inhabited

/-- An operand value in its carrier type (R61): wider than its legal domain, so that validation can fail. -/
inductive Value where
  | rat (v : Rat)
  | int (v : Int)
  | bool (v : Bool)
  | token (v : String)
  | bits (v : BitSeq)
  | frame (v : FrameArg)
deriving DecidableEq, Repr, Inhabited

/-- A request of the host (R60): the selector `op` and the operands by name, in any order. -/
structure Request where
  op   : BitVec 4
  args : List (OperandName × Value)
deriving DecidableEq, Repr, Inhabited

/-- An instruction in its encoded form: a request on the request interface, or the bit sequence of an air-interface frame. -/
inductive Encoded where
  | request (r : Request)
  | frame (bits : BitSeq)
deriving DecidableEq, Repr, Inhabited

/-! ## Error kinds, field identifiers, allowed sets -/

/-- The outcome kinds of R166 of spec/60_exceptions.md. -/
inductive ErrKind where
  | ok
  | invalidParameter
  | maskLengthMismatch
  | frameOutOfBounds
  | clusterCountMismatch
  | insufficientSamples
deriving DecidableEq, Repr, Inhabited

/-- The field identifiers of R167 of spec/60_exceptions.md. -/
inductive Field where
  | none
  | dr
  | m
  | trext
  | sel
  | session
  | target
  | q
  | action
  | membank
  | pointer
  | length
  | mask
  | truncate
  | updn
deriving DecidableEq, Repr, Inhabited

/-- The legal set of a field (R113), which an `InvalidParameter` names beside the field (R101). -/
inductive AllowedSet where
  | rats (vs : List Rat)
  | ints (vs : List Int)
  | range (lo hi : Int)
  | naturals (maxBits : Option Nat)
  | tokens (vs : List String)
deriving DecidableEq, Repr, Inhabited

/-- An error an operation can raise, with what it records (R161, R162, R165). -/
inductive Failure where
  | invalid (field : Field) (allowed : AllowedSet)
  | maskLength
  | tooFewSamples
deriving DecidableEq, Repr, Inhabited

/-! ## Why an encoded form stands for no instruction -/

/-- The reasons the decoder rejects by name. -/
inductive Reject where
  /-- The selector is 0xE or 0xF, which is no operation (R60). -/
  | reservedSelector (op : BitVec 4)
  /-- An operand of the operation is not in the request (R60: no default operand values). -/
  | missingOperand (n : OperandName)
  /-- The request has an operand that is not the operation's (R60). -/
  | foreignOperand (n : OperandName)
  /-- The request gives one operand twice. -/
  | repeatedOperand
  /-- An operand's value is not of its carrier type (R61). -/
  | wrongCarrier (n : OperandName)
  /-- A frame begins with no opcode of R56. -/
  | noSuchFormat
  /-- A frame has too few or too many bits for its format (R46 to R49, R58). -/
  | frameLength
  /-- A field of a frame holds a code that no legal operand produces (R57). -/
  | reservedCode (f : Field)
  /-- The Pointer field of a Select frame is not the EBV of its value (R54, R57). -/
  | pointerNotEbv
deriving DecidableEq, Repr, Inhabited

/-! ## Instructions -/

/-- The rows of spec/opcode_table.json. The first fourteen are the block's operations (R60) with their operands in carrier
types; the last five are the air-interface frame rows, which the block produces and never executes. `session` of
`queryadjust` is `none` where the request leaves it out, which only the layout `table_7` allows (R60, R106). -/
inductive Instr where
  | reset
  | cfgWrite (rate : Rat) (pwD : Option Rat)
  | crc5 (bits : BitSeq)
  | crc16 (bits : BitSeq)
  | ebv (value : Int)
  | pieEncode (bits : BitSeq)
  | piePreamble (blf dr : Rat)
  | pieFramesync
  | query (dr : Rat) (m : Int) (trext : Bool) (sel session target : String) (q : Int) (blf : Rat)
  | queryrep (session : String)
  | select (target : String) (action : Int) (membank : String) (pointer length : Int) (mask : BitSeq)
      (truncate : Bool) (blf dr : Rat)
  | queryadjust (session : Option String) (updn : String) (blf dr : Rat)
  | extract (nMaxGap nT1 nRn16 : Int)
  | sync (frame : FrameArg)
  | queryFrame (f : QueryFields) (crc : BitVec 5)
  | queryrepFrame (session : Session)
  | selectFrame (f : SelectFields) (crc : BitVec 16)
  | queryadjustFrame (session : Session) (updn : UpDn)
  | queryadjustTable7 (updn : UpDn)
deriving DecidableEq, Repr, Inhabited

end Sys2Proof
end

