-- ==== Sys2Proof/Machine/State.lean ====
section
/-! DEFINITION. The state of the CES block (spec/10_state.md R10, spec/20_memory.md R30) as plain data, the responses it
delivers, the host's moves, the reasons a step can stop, and the state after reset (R25, R185). -/

namespace Sys2Proof.Machine

/-- The configuration registers (R11, R12). `rate = none` is the register's own value *unset* (R25). -/
structure Cfg where
  rate : Option Rat
  pwD  : Rat
deriving DecidableEq, Repr, Inhabited

/-- The status register (R18): the outcome of the most recent operation. -/
structure Status where
  kind  : ErrKind
  field : Field
deriving DecidableEq, Repr, Inhabited

/-- The three memories of R30: the capture (its length is `cap_len`, its address a sample index, R31), the TX waveform
buffer (R36), and the frame store's two lists (R38). Dense lists are their own canonical form (log 9). -/
structure Memory where
  capture   : Samples
  tx        : Waveform
  frames    : List Samples
  dcWindows : List Samples
deriving DecidableEq, Repr, Inhabited

/-- The result part of a response (R60's column "result"; R108, R136). -/
inductive Result where
  | nothing
  | bits (S : BitSeq)
  | waveform (wf : Waveform)
  | frame (fb : BitSeq) (wf : Waveform)
  | windows (frames dcWindows : List Samples) (starts : List Nat)
  | sync (frameStart : Nat) (hEst : IQ)
deriving DecidableEq, Repr, Inhabited

/-- A response (R160): the status, the allowed set an `InvalidParameter` names (R101), and the result. -/
structure Response where
  status  : Status
  allowed : Option AllowedSet
  result  : Result
deriving DecidableEq, Repr, Inhabited

/-- The host's moves on the memories (R38, R42, R187, R192; log 16, 17). -/
inductive HostMove where
  /-- Load the capture memory from the bytes of a capture file (R32). -/
  | loadFile (file : List (BitVec 8))
  /-- Load the capture memory with samples (R187). -/
  | loadSamples (samples : Samples)
  /-- Change Frame `index` of the frame store in place (R38, R192). -/
  | writeFrame (index : Nat) (samples : Samples)
deriving DecidableEq, Repr, Inhabited

/-- What the host does to the block (log 10): offer an instruction in its encoded form, or move on a memory. -/
inductive HostInput where
  | offer (w : Encoded)
  | move (h : HostMove)
deriving DecidableEq, Repr, Inhabited

/-- The state of the block: R10's registers and memories, and four fields that are the model's own (`params`, `fresh`,
`inbox`, `outbox`; log 1, 7, 10). -/
structure State where
  cfg    : Cfg
  status : Status
  busy   : Bool
  mem    : Memory
  work   : Work
  params : Params
  fresh  : Nat
  inbox  : List HostInput
  outbox : List Response
deriving DecidableEq, Repr, Inhabited

/-- Why the machine stops with a fault. -/
inductive Fault where
  /-- A read of the capture outside `Capture[0 : cap_len]`, where `MemRead` is not defined (R31). Raised by EXTRACT's window
  reads only, and by none of them in fact (R34, R205). Safe: no state follows. -/
  | captureOutOfRange (addr n : Nat)
deriving DecidableEq, Repr, Inhabited

/-- The air-interface frame rows of the opcode table (R46 to R49). -/
inductive FrameFormat where
  | query
  | queryRep
  | select
  | queryAdjust
  | queryAdjustTable7
deriving DecidableEq, Repr, Inhabited

/-- Why a request has no meaning (R160 (3), R173). Every one is safe: no state follows, so no claim about one can be proved. -/
inductive Refusal where
  /-- An instruction without a meaning in this model. Raised by exec's refused arms only. Safe. -/
  | notModelled (mnemonic : String)
  /-- A waveform operation while `cfg.rate` is unset (R26, R173). Raised by the seven waveform operations. Safe. -/
  | rateUnset
  /-- A waveform operation under a rate or pulse width that is not positive (R82); `CFG_WRITE` lets none in, so only a state
  that no run reaches has one. Raised by the seven waveform operations. Safe. -/
  | configNotPositive
  /-- A waveform operation under a configuration with `n_pw = 0` (R82, R173). Raised by the seven waveform operations. Safe. -/
  | pulseShorterThanSample
  /-- `blf <= 0` (R89, R173). Raised by the operations with a preamble. Safe. -/
  | blfNotPositive
  /-- `n_trcal < n_pw` (R89, R173). Raised by the operations with a preamble. Safe. -/
  | trcalShorterThanPulse
  /-- `CFG_WRITE` of a non-positive value (R94, R173). Raised by CFG_WRITE. Safe. -/
  | cfgValueNotPositive
  /-- A negative operand of EXTRACT (R137, R173). Raised by EXTRACT. Safe. -/
  | negativeExtractOperand
  /-- SYNC of a frame-store entry that does not exist (R38). Raised by SYNC. Safe. -/
  | noSuchFrame (index : Nat)
  /-- A capture file whose length is not a multiple of 8 bytes (R32, U10). Raised by the host's load. Safe. -/
  | captureNotWhole
  /-- A capture with a NaN or an infinity (R33, R173, U11). Raised by the host's load. Safe. -/
  | captureNotFinite
  /-- A capture of more than `CAP_MAX` samples (R31, U26). Raised by the host's load. Safe. -/
  | captureTooLong
  /-- A change of a Frame that would change its length or that names no entry (R38). Raised by the host's write. Safe. -/
  | frameWriteRejected (index : Nat)
  /-- A move of the host while `busy = 1` (R19, R173, U15, U16). Raised by step. Safe. -/
  | heldWhileBusy
  /-- An encoded form that stands for no instruction: selector 0xE or 0xF (R60, R173), or operands that are not the
  operation's (log 11). Raised by step. Safe. -/
  | undecodable (why : Reject)
  /-- An air-interface frame offered as an operation: the block produces frames, it has no decoder (R59), and executes the
  fourteen operations and no other (R60). Raised by the five frame rows. Safe. -/
  | frameIsNoOperation (format : FrameFormat)
deriving DecidableEq, Repr, Inhabited

/-- The working registers at power-up. DESIGN CHOICE, log 7: R25 leaves all but `fb` unspecified; `fb` is empty (R25). -/
def Work.reset : Work :=
  { crc5 := ⟨false, false, false, false, false⟩, crc16 := 0, fb := [], crcIndex := 0, frameIndex := 0, sampleIndex := 0,
    scanIndex := 0, lag := 0, corrSum := IQ.zero, peakMag := 0, peakLag := 0, gainSum := IQ.zero }

/-- The state right after power-up (R25, R185). DESIGN CHOICE: the empty capture (log 8), the working registers and `fresh`
(log 7), and no host move pending (log 10). The parameters are R5's defaults (log 1). -/
def State.reset : State :=
  { cfg := { rate := none, pwD := 12 }, status := { kind := .ok, field := .none }, busy := false,
    mem := { capture := [], tx := [], frames := [], dcWindows := [] }, work := Work.reset, params := Params.default,
    fresh := 0, inbox := [], outbox := [] }

end Sys2Proof.Machine
end

