-- ==== Sys2Proof/Machine/Flags.lean ====
section
/-! DEFINITION. The status register's values (spec/10_state.md R18): what each outcome writes, and the numeric codes of
spec/60_exceptions.md R166 and R167. `status` and `busy` are the block's only flags (R21). -/

namespace Sys2Proof.Machine

/-- The status of a successful operation (R160 (1)). -/
def statusOk : Status := { kind := .ok, field := .none }

/-- The status an error leaves (R170): its kind, and the field where it is `InvalidParameter`, else `none`. -/
def failureStatus : Failure → Status
  | .invalid f _ => { kind := .invalidParameter, field := f }
  | .maskLength => { kind := .maskLengthMismatch, field := .none }
  | .tooFewSamples => { kind := .insufficientSamples, field := .none }

/-- The allowed set an error names (R101): only `InvalidParameter` names one. -/
def failureAllowed : Failure → Option AllowedSet
  | .invalid _ a => some a
  | .maskLength => none
  | .tooFewSamples => none

/-- The numeric code of `status.kind` (R166). -/
def kindCode : ErrKind → Nat
  | .ok => 0
  | .invalidParameter => 1
  | .maskLengthMismatch => 2
  | .frameOutOfBounds => 3
  | .clusterCountMismatch => 4
  | .insufficientSamples => 5

/-- The numeric code of `status.field` (R167). -/
def fieldCode : Field → Nat
  | .none => 0
  | .dr => 1
  | .m => 2
  | .trext => 3
  | .sel => 4
  | .session => 5
  | .target => 6
  | .q => 7
  | .action => 8
  | .membank => 9
  | .pointer => 10
  | .length => 11
  | .mask => 12
  | .truncate => 13
  | .updn => 14

/-- The numeric code of the status register: kind and field. -/
def statusCode (st : Status) : Nat × Nat := (kindCode st.kind, fieldCode st.field)

end Sys2Proof.Machine
end

