-- ==== Sys2Proof/Machine/Ops.lean ====
section
/-! DEFINITION. The named operations over memories and registers, and the two ways an operation ends with a response: `respond`
(spec/60_exceptions.md R160 (1)) and `raise`, the block's one error entry (R170). There is no return operation (R171): after
either the block is idle and takes the next request. -/

namespace Sys2Proof.Machine

/-- What an operation's step answers. -/
abbrev Answer := Host.Outcome State Fault Refusal

/-! ## Memories -/

/-- `cap_len` of R31: the capture's length in samples. -/
def capLen (m : Memory) : Nat := m.capture.length

/-- The capture sample at an index, where there is one (R31). -/
def captureAt (m : Memory) (i : Nat) : Option IQ := m.capture[i]?

/-- `MemRead(addr, n)` of R8 and R31: the samples `Capture[addr : addr+n]`, defined only for `addr + n <= cap_len`. -/
def memRead (m : Memory) (addr n : Nat) : Option Samples :=
  if addr + n ≤ capLen m then some ((m.capture.drop addr).take n) else none

/-- The DC-window length `N_DC` of R5. -/
def nDc : Nat := 200

/-- The form every memory operation keeps (R38): the frame store's lists are index-aligned, every DCWindow has exactly 200
samples, and the Frames have one common length. The capture and the buffer are dense lists, so every value of theirs is in
canonical form (log 9). -/
def Memory.wf (m : Memory) : Bool :=
  decide (m.frames.length = m.dcWindows.length) && m.dcWindows.all (fun d => decide (d.length = nDc)) &&
    m.frames.all (fun f => decide (f.length = (m.frames.headD []).length))

/-- The TX waveform buffer replaced as a whole (R36: `MemWrite(0, n, wf)`). -/
def writeTx (wf : Waveform) (s : State) : State :=
  { s with mem := { s.mem with tx := wf } }

/-- The frame store replaced as a whole (R38). -/
def writeFrameStore (frames dcWindows : List Samples) (s : State) : State :=
  { s with mem := { s.mem with frames := frames, dcWindows := dcWindows } }

/-- The capture memory replaced by the host (R187); the block has no write to it (R31). -/
def loadCapture (samples : Samples) (s : State) : State :=
  { s with mem := { s.mem with capture := samples } }

/-- One Frame changed in place by the host: entry `index` only, since every entry is a copy (R38, R192). -/
def setFrame (index : Nat) (samples : Samples) (s : State) : State :=
  { s with mem := { s.mem with frames := s.mem.frames.set index samples } }

/-! ## Ending an operation -/

/-- The working registers outside an operation: nothing in them survives its end (R10), so they hold the next free value
(U24, log 7), and the frame bit buffer is empty (R17). -/
def discardWork (s : State) : Work :=
  { Config.freeWork s.fresh with fb := [] }

/-- The end of an operation (R18, R19, R170): `status` is overwritten, `busy` returns to 0, the working registers are
discarded, the response is delivered once. -/
def finish (st : Status) (allowed : Option AllowedSet) (r : Result) (s : State) : State :=
  { s with
    status := st, busy := false, work := discardWork s, fresh := s.fresh + 1,
    outbox := s.outbox ++ [{ status := st, allowed := allowed, result := r }] }

/-- Ends an operation with `status = OK` and its result (R160 (1)). -/
def respond (r : Result) (s : State) : Answer :=
  .next (finish statusOk none r s)

/-- ERROR ENTRY (R170): `raise E(info)`. The operation stops, `status` takes the kind and the field, the response carries no
result, and nothing else of the state the host sees has changed. -/
def raise (e : Failure) (s : State) : Answer :=
  .next (finish (failureStatus e) (failureAllowed e) .nothing s)

/-- Ends a waveform operation: the TX waveform buffer is replaced, then the response is delivered (R36, R100). -/
def respondWaveform (wf : Waveform) (r : Result) (s : State) : Answer :=
  respond r (writeTx wf s)

/-- `busy` goes to 1 when a request is accepted (R19). -/
def accept (s : State) : State := { s with busy := true }

end Sys2Proof.Machine
end

