-- ==== Sys2Proof/Machine/AirFrame.lean ====
section
/-! DEFINITION. The air-interface frame rows of spec/opcode_table.json offered as operations. The block produces these frames
(spec/42_command_encoder.md R100), executes the fourteen operations of spec/30_encoding.md R60 "and no other", and "has no
decoder" (R59): each is refused by name (log 14). -/

namespace Sys2Proof.Machine

/-- QUERY.frame (R46, R59, R60). -/
def execQueryFrame (_f : QueryFields) (_crc : BitVec 5) (_s : State) : Answer :=
  .refused (.frameIsNoOperation .query)

/-- QUERYREP.frame (R47, R59, R60). -/
def execQueryrepFrame (_session : Session) (_s : State) : Answer :=
  .refused (.frameIsNoOperation .queryRep)

/-- SELECT.frame (R48, R59, R60). -/
def execSelectFrame (_f : SelectFields) (_crc : BitVec 16) (_s : State) : Answer :=
  .refused (.frameIsNoOperation .select)

/-- QUERYADJUST.frame (R49, R59, R60). -/
def execQueryadjustFrame (_session : Session) (_updn : UpDn) (_s : State) : Answer :=
  .refused (.frameIsNoOperation .queryAdjust)

/-- QUERYADJUST.table_7 (R49, R59, R60). -/
def execQueryadjustTable7 (_updn : UpDn) (_s : State) : Answer :=
  .refused (.frameIsNoOperation .queryAdjustTable7)

end Sys2Proof.Machine
end

