-- ==== Sys2Proof/Machine/Bits.lean ====
section
/-! DEFINITION. Numbers as bit sequences and the Extensible Bit Vector (spec/00_scope.md R8, spec/30_encoding.md R53, R54). -/

namespace Sys2Proof.Machine

/-- `ubits_n(v)` of R8: the `n` low bits of `v`, most significant first. -/
def ubits : Nat → Nat → BitSeq
  | 0, _ => []
  | n + 1, v => v.testBit n :: ubits n v

/-- `uval` of R8: the number a bit sequence spells, most significant bit first. -/
def uval (S : BitSeq) : Nat :=
  S.foldl (fun v b => 2 * v + b.toNat) 0

/-- `bitlen` of R8: the number of binary digits without a leading zero; `bitlen 0 = 0`. -/
def bitlen (v : Nat) : Nat :=
  if v = 0 then 0 else v.log2 + 1

/-- The number of 7-bit blocks of R54: `max(1, ceil(bitlen(v)/7))`. -/
def nblk (v : Nat) : Nat :=
  max 1 ((bitlen v + 6) / 7)

/-- `k` blocks of 7 bits, each behind its extension flag: 1 for every block but the last (R54). -/
def ebvBlocks : Nat → BitSeq → BitSeq
  | 0, _ => []
  | k + 1, B => decide (k ≠ 0) :: (B.take 7 ++ ebvBlocks k (B.drop 7))

/-- `EBV(v)` of R54. -/
def ebv (v : Nat) : BitSeq :=
  ebvBlocks (nblk v) (ubits (7 * nblk v) v)

/-- Reads EBV blocks off the front of a bit sequence until the block whose flag is 0 (R58: "the block whose first bit is 0 is
the last"): the 7-bit groups joined, and the rest. `fuel` bounds the number of blocks. -/
def ebvRead : Nat → BitSeq → Option (BitSeq × BitSeq)
  | 0, _ => none
  | _ + 1, [] => none
  | fuel + 1, e :: S =>
    if S.length < 7 then none
    else if e then (ebvRead fuel (S.drop 7)).map (fun r => (S.take 7 ++ r.1, r.2))
    else some (S.take 7, S.drop 7)

/-- The decoder of the source's round-trip property (R54: "strip extension bits, concatenate 7-bit groups, interpret as a
binary integer"): the value at the front of a bit sequence, and the rest. -/
def ebvDecode (S : BitSeq) : Option (Nat × BitSeq) :=
  (ebvRead S.length S).map (fun r => (uval r.1, r.2))

end Sys2Proof.Machine
end

