-- ==== Sys2Proof/Machine/CheckBits.lean ====
section
/-! DEFINITION. The check-bit generators as functions (spec/40_crc.md): CRC5 with its transition table and read-out (R65 to
R68), CRC16 as the parameter of R70 with the default of R71. -/

namespace Sys2Proof.Machine

/-- The CRC5 register's initial value `(1,0,0,1,0)` (R15), loaded at the start of every computation. -/
def crc5Init : Crc5Reg := ⟨true, false, false, true, false⟩

/-- The transition table of R66: old `c4`, input bit, new register; all five values from the old register at once. -/
def crc5Step (c : Crc5Reg) (b : Bit) : Crc5Reg :=
  match c.c4, b with
  | true,  true  => ⟨false, c.c0, c.c1, c.c2, c.c3⟩
  | true,  false => ⟨true, c.c0, c.c1, !c.c2, c.c3⟩
  | false, true  => ⟨true, c.c0, c.c1, !c.c2, c.c3⟩
  | false, false => ⟨false, c.c0, c.c1, c.c2, c.c3⟩

/-- The register after a bit sequence, first-sent bit first (R65). -/
def crc5Run (bits : BitSeq) : Crc5Reg :=
  bits.foldl crc5Step crc5Init

/-- The read-out of R68: the register in reverse order, `(c4, c3, c2, c1, c0)`, without inversion. -/
def crc5ReadOut (c : Crc5Reg) : BitSeq :=
  [c.c4, c.c3, c.c2, c.c1, c.c0]

/-- `CRC5(bits)` of R65. -/
def crc5 (bits : BitSeq) : BitSeq :=
  crc5ReadOut (crc5Run bits)

/-- One step of the default CRC16 register (R71): shift left by one, and add the generator 0x1021 where the top bit and the
input bit differ. -/
def crc16Step (r : BitVec 16) (b : Bit) : BitVec 16 :=
  if (r.getLsbD 15 ^^ b) then (r <<< 1) ^^^ 0x1021#16 else r <<< 1

/-- The default CRC16 register after a bit sequence, preset to all ones (R71). -/
def crc16Run (bits : BitSeq) : BitVec 16 :=
  bits.foldl crc16Step 0xFFFF#16

/-- The default `CRC16` of R71: the register ones-complemented. PRESUMED: general knowledge, not the source's (G6, log 2). -/
def crc16Gen2 (bits : BitSeq) : BitVec 16 :=
  crc16Run bits ^^^ 0xFFFF#16

/-- The `CRC16` function a block has (R70): the default, or any other total function to 16 bits. -/
def crc16Of (choice : Crc16Choice) (bits : BitSeq) : BitVec 16 :=
  match choice with
  | .gen2 => crc16Gen2 bits
  | .impl n => Config.crc16Impl n bits

/-- The sixteen check bits of R70, most significant first. -/
def crc16Bits (choice : Crc16Choice) (bits : BitSeq) : BitSeq :=
  ubits 16 (crc16Of choice bits).toNat

end Sys2Proof.Machine
end

