-- ==== Sys2Proof/Machine/Operands.lean ====
section
/-! DEFINITION. Operands and field codes: the legal sets of spec/42_command_encoder.md R113, the step from a carrier value to
a field value (R101), the code tables of spec/30_encoding.md R50 to R52 in both directions, and the field layouts of the four
air-interface frames (R46 to R49). -/

namespace Sys2Proof.Machine

/-! ## Carrier value to field value: the legal sets of R113 -/

/-- `dr` of R113: {8, 64/3}; only the exact rational 64/3 is legal. -/
def divideRatioOf (v : Rat) : Option DivideRatio :=
  if v = 8 then some .dr8 else if v = 64 / 3 then some .dr64_3 else none

/-- `m` of R113: {1, 2, 4, 8}. -/
def mFieldOf (v : Int) : Option MField :=
  if v = 1 then some .m1 else if v = 2 then some .m2 else if v = 4 then some .m4 else if v = 8 then some .m8 else none

/-- `sel` of R113; tokens are compared exactly and case-sensitively (R61). -/
def selOf (t : String) : Option SelField :=
  if t = "all" then some .all else if t = "~sl" then some .notSl else if t = "sl" then some .sl else none

/-- `session` of R113. -/
def sessionOf (t : String) : Option Session :=
  if t = "s0" then some .s0 else if t = "s1" then some .s1 else if t = "s2" then some .s2
  else if t = "s3" then some .s3 else none

/-- `target` of a Query (R113). -/
def queryTargetOf (t : String) : Option QueryTarget :=
  if t = "A" then some .a else if t = "B" then some .b else none

/-- `target` of a Select (R113). -/
def selectTargetOf (t : String) : Option SelectTarget :=
  if t = "inv-s0" then some .invS0 else if t = "inv-s1" then some .invS1 else if t = "inv-s2" then some .invS2
  else if t = "inv-s3" then some .invS3 else if t = "sl" then some .sl else none

/-- `membank` of R113. -/
def memBankOf (t : String) : Option MemBank :=
  if t = "FileType" then some .fileType else if t = "EPC" then some .epc else if t = "TID" then some .tid
  else if t = "File_0" then some .file0 else none

/-- `updn` of R113: only the three tokens (R106). -/
def upDnOf (t : String) : Option UpDn :=
  if t = "up" then some .up else if t = "keep" then some .keep else if t = "down" then some .down else none

/-- An integer operand with the legal set `0 .. hi` (R113 rows 7, 9, 12). -/
def rangeOf (hi : Nat) (v : Int) : Option Nat :=
  if 0 ≤ v ∧ v ≤ hi then some v.toNat else none

/-- Whether a pointer fits the implementation's bound `W_PTR`, where it has one (R113 row 11). -/
def pointerFits (wPtr : Option Nat) (v : Nat) : Bool :=
  match wPtr with
  | none => true
  | some w => decide (bitlen v ≤ w)

/-- `pointer` of R113: a natural number, of at most `W_PTR` bits where an implementation has that bound. -/
def pointerOf (wPtr : Option Nat) (v : Int) : Option Nat :=
  if 0 ≤ v ∧ pointerFits wPtr v.toNat = true then some v.toNat else none

/-! ## The legal sets as the error names them (R101, R113) -/

def drSet : AllowedSet := .rats [8, 64 / 3]
def mSet : AllowedSet := .ints [1, 2, 4, 8]
def selSet : AllowedSet := .tokens ["all", "~sl", "sl"]
def sessionSet : AllowedSet := .tokens ["s0", "s1", "s2", "s3"]
def queryTargetSet : AllowedSet := .tokens ["A", "B"]
def qSet : AllowedSet := .range 0 15
def selectTargetSet : AllowedSet := .tokens ["inv-s0", "inv-s1", "inv-s2", "inv-s3", "sl"]
def actionSet : AllowedSet := .range 0 7
def memBankSet : AllowedSet := .tokens ["FileType", "EPC", "TID", "File_0"]
def pointerSet (wPtr : Option Nat) : AllowedSet := .naturals wPtr
def lengthSet : AllowedSet := .range 0 255
def upDnSet : AllowedSet := .tokens ["up", "keep", "down"]

/-- Whether a carrier value lies in a legal set. -/
def allowedSetAdmits : AllowedSet → Value → Bool
  | .rats vs, .rat v => vs.contains v
  | .ints vs, .int v => vs.contains v
  | .range lo hi, .int v => decide (lo ≤ v ∧ v ≤ hi)
  | .naturals w, .int v => decide (0 ≤ v) && pointerFits w v.toNat
  | .tokens vs, .token t => vs.contains t
  | _, _ => false

/-! ## Validation (R101, R113): the first operand out of its domain, in sent order -/

/-- One check of R101: the field value, or `InvalidParameter` naming the field and the allowed set. -/
def need {α : Type} (f : Field) (allowed : AllowedSet) : Option α → Except Failure α
  | some v => .ok v
  | none => .error (.invalid f allowed)

/-- The validation of a QUERY: DR, M, TRext (cannot fail), Sel, Session, Target, Q (R103). -/
def validateQuery (dr : Rat) (m : Int) (trext : Bool) (sel session target : String) (q : Int) :
    Except Failure QueryFields := do
  let dr ← need .dr drSet (divideRatioOf dr)
  let m ← need .m mSet (mFieldOf m)
  let sel ← need .sel selSet (selOf sel)
  let session ← need .session sessionSet (sessionOf session)
  let target ← need .target queryTargetSet (queryTargetOf target)
  let q ← need .q qSet (rangeOf 15 q)
  .ok { dr := dr, m := m, trext := trext, sel := sel, session := session, target := target, q := BitVec.ofNat 4 q }

/-- The mask check of R105: `MaskLengthMismatch` unless `len(mask) = length`. -/
def needMask (length : Nat) (mask : BitSeq) : Except Failure BitSeq :=
  if mask.length = length then .ok mask else .error .maskLength

/-- The validation of a SELECT: Target, Action, MemBank, Pointer, Length, the mask, Truncate (cannot fail), DR (R105). -/
def validateSelect (wPtr : Option Nat) (target : String) (action : Int) (membank : String) (pointer length : Int)
    (mask : BitSeq) (truncate : Bool) (dr : Rat) : Except Failure (SelectFields × DivideRatio) := do
  let target ← need .target selectTargetSet (selectTargetOf target)
  let action ← need .action actionSet (rangeOf 7 action)
  let membank ← need .membank memBankSet (memBankOf membank)
  let pointer ← need .pointer (pointerSet wPtr) (pointerOf wPtr pointer)
  let length ← need .length lengthSet (rangeOf 255 length)
  let mask ← needMask length mask
  let dr ← need .dr drSet (divideRatioOf dr)
  .ok ({ target := target, action := BitVec.ofNat 3 action, membank := membank, pointer := pointer, mask := mask,
         truncate := truncate }, dr)

/-- The fields of a QueryAdjust under a layout: the Session field stands only in `gen2_9` (R49). -/
structure QueryAdjustFields where
  session : Option Session
  updn    : UpDn
deriving DecidableEq, Repr, Inhabited

/-- The Session check of a QUERYADJUST: under the layout `gen2_9` only; `table_7` ignores the operand (R106). An operand that
is left out is in no legal set; a request that leaves it out under `gen2_9` does not decode (log 21). -/
def validateAdjustSession (layout : QadjLayout) (session : Option String) : Except Failure (Option Session) :=
  match layout with
  | .gen2_9 => (need .session sessionSet (session.bind sessionOf)).map some
  | .table_7 => .ok none

/-- The validation of a QUERYADJUST: Session (`gen2_9` only), UpDn, DR (R106). -/
def validateQueryAdjust (layout : QadjLayout) (session : Option String) (updn : String) (dr : Rat) :
    Except Failure (QueryAdjustFields × DivideRatio) := do
  let session ← validateAdjustSession layout session
  let updn ← need .updn upDnSet (upDnOf updn)
  let dr ← need .dr drSet (divideRatioOf dr)
  .ok ({ session := session, updn := updn }, dr)

/-! ## Field codes (R50, R51, R52) -/

/-- The exact value of a divide ratio (R202(a)). -/
def drValue : DivideRatio → Rat
  | .dr8 => 8
  | .dr64_3 => 64 / 3

def drCode : DivideRatio → BitSeq
  | .dr8 => [false]
  | .dr64_3 => [true]

def mCode : MField → BitSeq
  | .m1 => [false, false]
  | .m2 => [false, true]
  | .m4 => [true, false]
  | .m8 => [true, true]

/-- TRext and Truncate: false is 0, true is 1 (R50, R51). -/
def flagCode (b : Bool) : BitSeq := [b]

/-- `all` is 00, `~sl` is 10, `sl` is 11; 01 is never produced (R50, R57). -/
def selCode : SelField → BitSeq
  | .all => [false, false]
  | .notSl => [true, false]
  | .sl => [true, true]

def sessionCode : Session → BitSeq
  | .s0 => [false, false]
  | .s1 => [false, true]
  | .s2 => [true, false]
  | .s3 => [true, true]

def queryTargetCode : QueryTarget → BitSeq
  | .a => [false]
  | .b => [true]

/-- Codes in listing order (R51; the spec's decision D8, log 4). -/
def selectTargetCode : SelectTarget → BitSeq
  | .invS0 => [false, false, false]
  | .invS1 => [false, false, true]
  | .invS2 => [false, true, false]
  | .invS3 => [false, true, true]
  | .sl => [true, false, false]

/-- Codes in listing order (R51; the spec's decision D8, log 4). -/
def memBankCode : MemBank → BitSeq
  | .fileType => [false, false]
  | .epc => [false, true]
  | .tid => [true, false]
  | .file0 => [true, true]

/-- The codes of R52. PRESUMED: general knowledge (G5, log 3). -/
def upDnCode : UpDn → BitSeq
  | .up => [true, true, false]
  | .keep => [false, false, false]
  | .down => [false, true, true]

/-! ## The inverse code tables (R59: every table is one-to-one) -/

def drOfCode : BitSeq → Option DivideRatio
  | [false] => some .dr8
  | [true] => some .dr64_3
  | _ => none

def mOfCode : BitSeq → Option MField
  | [false, false] => some .m1
  | [false, true] => some .m2
  | [true, false] => some .m4
  | [true, true] => some .m8
  | _ => none

def flagOfCode : BitSeq → Option Bool
  | [b] => some b
  | _ => none

def selOfCode : BitSeq → Option SelField
  | [false, false] => some .all
  | [true, false] => some .notSl
  | [true, true] => some .sl
  | _ => none

def sessionOfCode : BitSeq → Option Session
  | [false, false] => some .s0
  | [false, true] => some .s1
  | [true, false] => some .s2
  | [true, true] => some .s3
  | _ => none

def queryTargetOfCode : BitSeq → Option QueryTarget
  | [false] => some .a
  | [true] => some .b
  | _ => none

def selectTargetOfCode : BitSeq → Option SelectTarget
  | [false, false, false] => some .invS0
  | [false, false, true] => some .invS1
  | [false, true, false] => some .invS2
  | [false, true, true] => some .invS3
  | [true, false, false] => some .sl
  | _ => none

def memBankOfCode : BitSeq → Option MemBank
  | [false, false] => some .fileType
  | [false, true] => some .epc
  | [true, false] => some .tid
  | [true, true] => some .file0
  | _ => none

def upDnOfCode : BitSeq → Option UpDn
  | [true, true, false] => some .up
  | [false, false, false] => some .keep
  | [false, true, true] => some .down
  | _ => none

/-! ## Frame fields in format order (R45 to R49), without check bits -/

def opcodeQuery : BitSeq := [true, false, false, false]
def opcodeQueryRep : BitSeq := [false, false]
def opcodeSelect : BitSeq := [true, false, true, false]
def opcodeQueryAdjust : BitSeq := [true, false, false, true]

/-- The 17 bits of a Query before its CRC5 (R46). -/
def queryPayload (f : QueryFields) : BitSeq :=
  opcodeQuery ++ drCode f.dr ++ mCode f.m ++ flagCode f.trext ++ selCode f.sel ++ sessionCode f.session ++
    queryTargetCode f.target ++ ubits 4 f.q.toNat

/-- The 4 bits of a QueryRep (R47): no check bits. -/
def queryRepFrame (session : Session) : BitSeq :=
  opcodeQueryRep ++ sessionCode session

/-- The bits of a Select before its CRC16 (R48). -/
def selectPayload (f : SelectFields) : BitSeq :=
  opcodeSelect ++ selectTargetCode f.target ++ ubits 3 f.action.toNat ++ memBankCode f.membank ++ ebv f.pointer ++
    ubits 8 f.mask.length ++ f.mask ++ flagCode f.truncate

/-- The bits of a QueryAdjust (R49): 9 under `gen2_9`, 7 under `table_7`, no check bits. -/
def queryAdjustFrame (f : QueryAdjustFields) : BitSeq :=
  opcodeQueryAdjust ++ (match f.session with | some s => sessionCode s | none => []) ++ upDnCode f.updn

end Sys2Proof.Machine
end

