-- ==== Sys2Proof/Machine/Pie.lean ====
section
/-! DEFINITION. The PulseIntervalEncoder (spec/41_pie.md): sample counts (R81, R89), pulses and symbols (R83, R84), the prefixes
(R87 to R91), the admission of a configuration (R82, R89), time and amplitude (R92), and the three waveform operations. -/

namespace Sys2Proof.Machine

/-! ## Counts -/

/-- The sample rate and the five sample counts of R81. -/
structure Timing where
  rate   : Rat
  nPw    : Nat
  nData0 : Nat
  nData1 : Nat
  nRtcal : Nat
  nDelim : Nat
deriving DecidableEq, Repr, Inhabited

/-- `floor` of a non-negative rational (R8, R200(a)). -/
def floorNat (q : Rat) : Nat := q.floor.toNat

/-- The counts of R81, each truncated on its own from the exact product (R93). -/
def timingOf (rate pwD : Rat) : Timing :=
  { rate := rate
    nPw := floorNat (pwD * rate / 1000000)
    nData0 := floorNat (2 * pwD * rate / 1000000)
    nData1 := floorNat (4 * pwD * rate / 1000000)
    nRtcal := floorNat (6 * pwD * rate / 1000000)
    nDelim := floorNat (12 * rate / 1000000) }

/-- `n_trcal` of R89. -/
def trcalCount (rate blf : Rat) (dr : DivideRatio) : Nat :=
  floorNat (drValue dr * rate / blf)

/-! ## Waveforms -/

/-- `pulse(n)` of R83: high for `n - n_pw` samples, then low for `n_pw`. -/
def pulse (t : Timing) (n : Nat) : Waveform :=
  List.replicate (n - t.nPw) Level.H ++ List.replicate t.nPw Level.L

/-- The symbol of a bit (R84). -/
def symbol (t : Timing) (b : Bit) : Waveform :=
  pulse t (if b then t.nData1 else t.nData0)

/-- `encode(bits)` of R85: the symbols in order. -/
def encodeBits (t : Timing) (bits : BitSeq) : Waveform :=
  bits.flatMap (symbol t)

/-- The delimiter (R87). -/
def delimiter (t : Timing) : Waveform :=
  List.replicate t.nDelim Level.L

/-- `frame_sync()` of R91: delimiter, data0, RTcal pulse (R88). -/
def frameSync (t : Timing) : Waveform :=
  delimiter t ++ symbol t false ++ pulse t t.nRtcal

/-- `preamble(blf, dr)` of R90 for a TRcal pulse of `nTrcal` samples: delimiter, data0, RTcal pulse, TRcal pulse. -/
def preamble (t : Timing) (nTrcal : Nat) : Waveform :=
  delimiter t ++ symbol t false ++ pulse t t.nRtcal ++ pulse t nTrcal

/-! ## Time and amplitude (R37, R92) -/

/-- The time in seconds at which sample `k` of a waveform begins (R92). -/
def sampleTime (rate : Rat) (k : Nat) : Rat := k / rate

/-- The amplitude of a level (R37, R92): `A_HIGH` and `A_LOW`. -/
def levelAmplitude (p : Params) : Level → Rat
  | .H => p.aHigh
  | .L => p.aLow

/-- A waveform as transmit amplitudes (R37). -/
def amplitudes (p : Params) (wf : Waveform) : List Rat := wf.map (levelAmplitude p)

/-- A waveform simulated as IQ: the amplitude in phase, quadrature zero (R37). -/
def waveformIQ (p : Params) (wf : Waveform) : Samples := wf.map (fun l => ⟨levelAmplitude p l, 0⟩)

/-! ## Admission -/

/-- The configuration of a waveform operation, read once (R109), or the refusal of R26 and R82. -/
def admitConfig (s : State) : Except Refusal Timing :=
  match s.cfg.rate with
  | none => .error .rateUnset
  | some rate =>
    if rate ≤ 0 ∨ s.cfg.pwD ≤ 0 then .error .configNotPositive
    else if (timingOf rate s.cfg.pwD).nPw = 0 then .error .pulseShorterThanSample
    else .ok (timingOf rate s.cfg.pwD)

/-- The TRcal count under a configuration, or the refusal of R89. -/
def admitTrcal (t : Timing) (blf : Rat) (dr : DivideRatio) : Except Refusal Nat :=
  if blf ≤ 0 then .error .blfNotPositive
  else if trcalCount t.rate blf dr < t.nPw then .error .trcalShorterThanPulse
  else .ok (trcalCount t.rate blf dr)

/-- The configuration and the preamble of an operation that has one. -/
def admitPreamble (s : State) (blf : Rat) (dr : DivideRatio) : Except Refusal (Timing × Waveform) := do
  let t ← admitConfig s
  let n ← admitTrcal t blf dr
  .ok (t, preamble t n)

/-- The configuration and the frame-sync of an operation that has one. -/
def admitFrameSync (s : State) : Except Refusal (Timing × Waveform) := do
  let t ← admitConfig s
  .ok (t, frameSync t)

/-! ## Operations -/

/-- PIE_ENCODE (R85). -/
def execPieEncode (bits : BitSeq) (s : State) : Answer :=
  match admitConfig s with
  | .error r => .refused r
  | .ok t => respondWaveform (encodeBits t bits) (.waveform (encodeBits t bits)) s

/-- PIE_PREAMBLE (R90): `dr` is validated first (R89, R113), then the configuration is admitted. -/
def execPiePreamble (blf dr : Rat) (s : State) : Answer :=
  match need .dr drSet (divideRatioOf dr) with
  | .error e => raise e s
  | .ok d =>
    match admitPreamble s blf d with
    | .error r => .refused r
    | .ok (_, wf) => respondWaveform wf (.waveform wf) s

/-- PIE_FRAMESYNC (R91). -/
def execPieFramesync (s : State) : Answer :=
  match admitFrameSync s with
  | .error r => .refused r
  | .ok (_, wf) => respondWaveform wf (.waveform wf) s

end Sys2Proof.Machine
end

