-- ==== Sys2Proof/Machine/Command.lean ====
section
/-! DEFINITION. The CommandEncoder (spec/42_command_encoder.md): EBV (R102), QUERY (R103), QUERYREP (R104), SELECT (R105),
QUERYADJUST (R106), each in the five steps of R100: validate, build, append check bits, prefix, render. -/

namespace Sys2Proof.Machine

/-- Steps 4 and 5 of R100 (R107, R108): `wf = prefix ++ encode(fb)`, the response is the pair, the buffer holds `wf`; or the
refusal of R109. -/
def transmit (pre : Except Refusal (Timing × Waveform)) (fb : BitSeq) (s : State) : Answer :=
  match pre with
  | .error r => .refused r
  | .ok (t, wf) => respondWaveform (wf ++ encodeBits t fb) (.frame fb (wf ++ encodeBits t fb)) s

/-- A Query frame: 17 bits and their CRC5 (R46, R55). -/
def queryFrame (f : QueryFields) : BitSeq :=
  queryPayload f ++ crc5 (queryPayload f)

/-- A Select frame: its fields and their CRC16 (R48, R55). -/
def selectFrame (choice : Crc16Choice) (f : SelectFields) : BitSeq :=
  selectPayload f ++ crc16Bits choice (selectPayload f)

/-- EBV (R102): `InvalidParameter(Pointer)` for a negative value and for no other; the error names the legal set of that field
(R101, R113 row 11). -/
def execEbv (value : Int) (s : State) : Answer :=
  match need .pointer (pointerSet s.params.wPtr) (pointerOf none value) with
  | .error e => raise e s
  | .ok v => respond (.bits (ebv v)) s

/-- QUERY (R103): the one `dr` gives the DR field and sizes the TRcal pulse. -/
def execQuery (dr : Rat) (m : Int) (trext : Bool) (sel session target : String) (q : Int) (blf : Rat) (s : State) :
    Answer :=
  match validateQuery dr m trext sel session target q with
  | .error e => raise e s
  | .ok f => transmit (admitPreamble s blf f.dr) (queryFrame f) s

/-- QUERYREP (R104). -/
def execQueryrep (session : String) (s : State) : Answer :=
  match need .session sessionSet (sessionOf session) with
  | .error e => raise e s
  | .ok v => transmit (admitFrameSync s) (queryRepFrame v) s

/-- SELECT (R105): `dr` and `blf` size the preamble only. -/
def execSelect (target : String) (action : Int) (membank : String) (pointer length : Int) (mask : BitSeq)
    (truncate : Bool) (blf dr : Rat) (s : State) : Answer :=
  match validateSelect s.params.wPtr target action membank pointer length mask truncate dr with
  | .error e => raise e s
  | .ok (f, d) => transmit (admitPreamble s blf d) (selectFrame s.params.crc16 f) s

/-- QUERYADJUST (R106): no check bits; the layout is the parameter `QADJ_LAYOUT`. -/
def execQueryadjust (session : Option String) (updn : String) (blf dr : Rat) (s : State) : Answer :=
  match validateQueryAdjust s.params.qadjLayout session updn dr with
  | .error e => raise e s
  | .ok (f, d) => transmit (admitPreamble s blf d) (queryAdjustFrame f) s

end Sys2Proof.Machine
end

