-- ==== Sys2Proof/Machine/Crc.lean ====
section
/-! DEFINITION. The stand-alone check-bit operations (spec/40_crc.md R65, R70). Neither can fail, reads `cfg` or writes a buffer. -/

namespace Sys2Proof.Machine

/-- CRC5 (R65, R73). -/
def execCrc5 (bits : BitSeq) (s : State) : Answer :=
  respond (.bits (crc5 bits)) s

/-- CRC16 (R70, R72): the function is the parameter `CRC16`. -/
def execCrc16 (bits : BitSeq) (s : State) : Answer :=
  respond (.bits (crc16Bits s.params.crc16 bits)) s

end Sys2Proof.Machine
end

