-- ==== Sys2Proof/Machine/Numerics.lean ====
section
/-! DEFINITION. Arithmetic on IQ samples (spec/45_common_semantics.md R202), exact complex rationals by default, and the reference
(spec/44_frame_synchronizer.md R146) under which samples are summed (R148, R152). -/

namespace Sys2Proof

/-- The sum of two samples, exactly. -/
def IQ.add (a b : IQ) : IQ := ⟨a.re + b.re, a.im + b.im⟩

/-- The product of two complex numbers, exactly. -/
def IQ.mul (a b : IQ) : IQ := ⟨a.re * b.re - a.im * b.im, a.re * b.im + a.im * b.re⟩

/-- `abs2(z) = re² + im²` of R8. -/
def IQ.abs2 (z : IQ) : Rat := z.re * z.re + z.im * z.im

/-- A complex number divided by a rational. -/
def IQ.divRat (z : IQ) (d : Rat) : IQ := ⟨z.re / d, z.im / d⟩

/-- The sum of a list of samples, exactly. -/
def IQ.sum (zs : Samples) : IQ := zs.foldl IQ.add IQ.zero

namespace Machine

/-! ## The reference -/

/-- `PAT` of R5 and R146. -/
def pat : BitSeq :=
  [true, true, false, true, false, false, true, false, false, false, true, true]

/-- The reference `REF` of R146: each pattern element repeated 25 samples; 300 values. -/
def ref : BitSeq := pat.flatMap (List.replicate 25)

/-- `N_REF` of R5: the reference's length. -/
def nRef : Nat := 300

/-- `N_WIN` of R5: the search window `len(reference) + 100` of R147. -/
def nWin : Nat := 400

/-- `N_OFF` of R5: the offset of R148 and R151. -/
def nOff : Nat := 150

/-- The samples under the ones of a reference laid over them, in order (R148, R152). -/
def underOnes : BitSeq → Samples → Samples
  | r :: rs, x :: xs => if r then x :: underOnes rs xs else underOnes rs xs
  | _, _ => []

/-- The search window with zeros outside it (R148: `Wz`), from window position -150 on. -/
def padWindow (W : Samples) : Samples :=
  List.replicate nOff IQ.zero ++ W ++ List.replicate nOff IQ.zero

/-! ## The parameter `NUMERICS` -/

/-- The default `NUMERICS` (R202): `low(z)` is `abs2(z) < 1/400` (R131), `s_i` is the sum of the window samples under the ones of
the reference laid at `i - 150` and magnitudes are compared as squares (R148), the mean divides by 150 (R152), nothing is
rounded. -/
def numericsExact : Numerics :=
  { low := fun z => decide (z.abs2 < 1 / 400)
    corr := fun W i => IQ.sum (underOnes ref ((padWindow W).drop i))
    mag := IQ.abs2
    mean := fun zs => (IQ.sum zs).divRat 150 }

/-- The arithmetic a block has: the exact default, or any other one (R202). -/
def numericsOf : NumericsChoice → Numerics
  | .exact => numericsExact
  | .impl n => Config.numericsImpl n

end Machine
end Sys2Proof
end

