-- ==== Sys2Proof/Machine/Extract.lean ====
section
/-! DEFINITION. The FrameExtractor (spec/43_frame_extractor.md): low samples (R131), markers (R132, R141), windows (R133, R134),
drops (R135), output (R136). -/

namespace Sys2Proof.Machine

/-- The low indices of a list whose first element has index `i`, ascending (R131). -/
def lowsFrom (low : IQ → Bool) : Nat → Samples → List Nat
  | _, [] => []
  | i, z :: zs => if low z then i :: lowsFrom low (i + 1) zs else lowsFrom low (i + 1) zs

/-- `Lo` of R130: the low indices of the whole capture. -/
def lowIndices (num : Numerics) (capture : Samples) : List Nat :=
  lowsFrom num.low 0 capture

/-- The low indices that start a gap longer than `nMaxGap`, strictly; the last low index starts none (R132). -/
def gapStarts (nMaxGap : Nat) : List Nat → List Nat
  | a :: b :: Lo => if nMaxGap < b - a then a :: gapStarts nMaxGap (b :: Lo) else gapStarts nMaxGap (b :: Lo)
  | _ => []

/-- The extra marker of R141 under `TAIL_MARKER = true`: the last low index, where the stretch to the end of the capture is
longer than `nMaxGap`. -/
def tailMarker (tail : Bool) (nMaxGap len : Nat) (Lo : List Nat) : List Nat :=
  match tail, Lo.getLast? with
  | true, some a => if nMaxGap < len - a then [a] else []
  | _, _ => []

/-- `Markers` of R130, ascending. -/
def markers (p : Params) (nMaxGap : Nat) (capture : Samples) : List Nat :=
  let Lo := lowIndices (numericsOf p.numerics) capture
  gapStarts nMaxGap Lo ++ tailMarker p.tailMarker nMaxGap capture.length Lo

/-- The drop rule of R135 for a window that starts at `start`: `end >= cap_len`, or no room for the DC window. -/
def dropped (len nRn16 start : Nat) : Bool :=
  decide (len ≤ start + nRn16) || decide (start < nDc)

/-- One kept marker's windows: its start, its Frame and its DCWindow. -/
structure Window where
  start    : Nat
  frame    : Samples
  dcWindow : Samples
deriving DecidableEq, Repr, Inhabited

/-- The two reads of a kept marker (R133, R134), each inside the capture or a fault (R31). -/
def carveAt (m : Memory) (nRn16 start : Nat) : Except Fault Window :=
  match memRead m start nRn16 with
  | none => .error (.captureOutOfRange start nRn16)
  | some frame =>
    match memRead m (start - nDc) nDc with
    | none => .error (.captureOutOfRange (start - nDc) nDc)
    | some dc => .ok { start := start, frame := frame, dcWindow := dc }

/-- The loop of R130 over the markers; a dropped marker changes nothing else (R135). -/
def carve (m : Memory) (nT1 nRn16 : Nat) : List Nat → Except Fault (List Window)
  | [] => .ok []
  | k :: ks =>
    if dropped (capLen m) nRn16 (k + nT1) then carve m nT1 nRn16 ks
    else
      match carveAt m nRn16 (k + nT1) with
      | .error f => .error f
      | .ok w => (carve m nT1 nRn16 ks).map (w :: ·)

/-- The end of EXTRACT: the frame store is replaced as a whole and the response carries the kept start indices too (R136). -/
def storeWindows (ws : List Window) (s : State) : Answer :=
  respond (.windows (ws.map (·.frame)) (ws.map (·.dcWindow)) (ws.map (·.start)))
    (writeFrameStore (ws.map (·.frame)) (ws.map (·.dcWindow)) s)

/-- EXTRACT (R130, R137). -/
def execExtract (nMaxGap nT1 nRn16 : Int) (s : State) : Answer :=
  if nMaxGap < 0 ∨ nT1 < 0 ∨ nRn16 < 0 then .refused .negativeExtractOperand
  else
    match carve s.mem nT1.toNat nRn16.toNat (markers s.params nMaxGap.toNat s.mem.capture) with
    | .error f => .fault f
    | .ok ws => storeWindows ws s

end Sys2Proof.Machine
end

