-- ==== Sys2Proof/Machine/Sync.lean ====
section
/-! DEFINITION. The FrameSynchronizer (spec/44_frame_synchronizer.md): the correlation (R147, R148), the
peak (R150), the start (R151), the channel estimate (R152), the errors (R153). -/

namespace Sys2Proof.Machine

/-- The 400 values `s_i` of R148 for a search window. -/
def correlation (num : Numerics) (W : Samples) : Samples :=
  (List.range nWin).map (num.corr W)

/-- The running maximum of R27 and R150: `best` and its index so far, `i` the index of the next value; only a strictly larger
value replaces it, so the least index wins a tie. -/
def argmaxFrom (bestIdx : Nat) (best : Rat) : Nat → List Rat → Nat
  | _, [] => bestIdx
  | i, v :: vs => if best < v then argmaxFrom i v (i + 1) vs else argmaxFrom bestIdx best (i + 1) vs

/-- The least index of the largest value (R150); 0 for an empty list. -/
def argmax : List Rat → Nat
  | [] => 0
  | v :: vs => argmaxFrom 0 v 1 vs

/-- `p` of R145 and R150: the peak over the first 400 samples of a frame. -/
def peakIndex (num : Numerics) (frame : Samples) : Nat :=
  argmax ((correlation num (frame.take nWin)).map num.mag)

/-- `frame_start = max(0, p - 150)` of R151. -/
def frameStart (num : Numerics) (frame : Samples) : Nat :=
  peakIndex num frame - nOff

/-- `h_est` of R152: the mean of the 150 samples under the ones of the reference laid at `start`. -/
def channelEstimate (num : Numerics) (frame : Samples) (start : Nat) : IQ :=
  num.mean (underOnes ref (frame.drop start))

/-- The computation of R145 on a frame: the result, or `InsufficientSamples` (R153). -/
def synchronize (num : Numerics) (frame : Samples) : Except Failure (Nat × IQ) :=
  if frame.length < nWin then .error .tooFewSamples
  else if frame.length < frameStart num frame + nRef then .error .tooFewSamples
  else .ok (frameStart num frame, channelEstimate num frame (frameStart num frame))

/-- The samples of SYNC's operand: given ones, or an entry of the frame store (R30(c)). -/
def frameOf (m : Memory) : FrameArg → Except Refusal Samples
  | .given samples => .ok samples
  | .stored index =>
    match m.frames[index]? with
    | none => .error (.noSuchFrame index)
    | some samples => .ok samples

/-- SYNC (R145): it changes nothing but `status`. -/
def execSync (arg : FrameArg) (s : State) : Answer :=
  match frameOf s.mem arg with
  | .error r => .refused r
  | .ok frame =>
    match synchronize (numericsOf s.params.numerics) frame with
    | .error e => raise e s
    | .ok (start, h) => respond (.sync start h) s

end Sys2Proof.Machine
end

