-- ==== Sys2Proof/Machine/System.lean ====
section
/-! DEFINITION. The system operations (spec/45_common_semantics.md R206): RESET (spec/70_reset_and_hazards.md R185) and CFG_WRITE
(spec/41_pie.md R94). -/

namespace Sys2Proof.Machine

/-- The registers and buffers that RESET writes; the capture memory is not changed (R185). The host's channels and the
parameters are not the block's to reset (log 10). -/
def resetBlock (s : State) : State :=
  { s with
    cfg := State.reset.cfg, status := State.reset.status, busy := false,
    mem := { capture := s.mem.capture, tx := [], frames := [], dcWindows := [] } }

/-- RESET (R185). -/
def execReset (s : State) : Answer :=
  respond .nothing (resetBlock s)

/-- Whether a given optional value is non-positive. -/
def givenNotPositive : Option Rat → Bool
  | none => false
  | some v => decide (v ≤ 0)

/-- The configuration after `CFG_WRITE`: an omitted `pw_d` stays as it is (R94). -/
def writeCfg (rate : Rat) (pwD : Option Rat) (s : State) : State :=
  { s with cfg := { rate := some rate, pwD := pwD.getD s.cfg.pwD } }

/-- CFG_WRITE (R94): a non-positive value is refused; no buffer changes. -/
def execCfgWrite (rate : Rat) (pwD : Option Rat) (s : State) : Answer :=
  if decide (rate ≤ 0) || givenNotPositive pwD then .refused .cfgValueNotPositive
  else respond .nothing (writeCfg rate pwD s)

end Sys2Proof.Machine
end

