-- ==== Sys2Proof/Machine/Dispatch.lean ====
section
/-! DEFINITION. One instruction's effect: one arm per constructor, each one call of its meaning (spec/30_encoding.md R60). -/

namespace Sys2Proof.Machine

def exec (i : Instr) (s : State) : Host.Outcome State Fault Refusal :=
  match i with
  | .reset => Sys2Proof.Machine.execReset s
  | .cfgWrite rate pwD => Sys2Proof.Machine.execCfgWrite rate pwD s
  | .crc5 bits => Sys2Proof.Machine.execCrc5 bits s
  | .crc16 bits => Sys2Proof.Machine.execCrc16 bits s
  | .ebv value => Sys2Proof.Machine.execEbv value s
  | .pieEncode bits => Sys2Proof.Machine.execPieEncode bits s
  | .piePreamble blf dr => Sys2Proof.Machine.execPiePreamble blf dr s
  | .pieFramesync => Sys2Proof.Machine.execPieFramesync s
  | .query dr m trext sel session target q blf => Sys2Proof.Machine.execQuery dr m trext sel session target q blf s
  | .queryrep session => Sys2Proof.Machine.execQueryrep session s
  | .select target action membank pointer length mask truncate blf dr => Sys2Proof.Machine.execSelect target action membank pointer length mask truncate blf dr s
  | .queryadjust session updn blf dr => Sys2Proof.Machine.execQueryadjust session updn blf dr s
  | .extract nMaxGap nT1 nRn16 => Sys2Proof.Machine.execExtract nMaxGap nT1 nRn16 s
  | .sync frame => Sys2Proof.Machine.execSync frame s
  | .queryFrame f crc => Sys2Proof.Machine.execQueryFrame f crc s
  | .queryrepFrame session => Sys2Proof.Machine.execQueryrepFrame session s
  | .selectFrame f crc => Sys2Proof.Machine.execSelectFrame f crc s
  | .queryadjustFrame session updn => Sys2Proof.Machine.execQueryadjustFrame session updn s
  | .queryadjustTable7 updn => Sys2Proof.Machine.execQueryadjustTable7 updn s

end Sys2Proof.Machine
end

