-- ==== Sys2Proof/WellFormed.lean ====
section
/-! DEFINITION. Which instructions have an encoded form that stands for them (spec/30_encoding.md R59, R60): an operation
whose operands a request can carry, an air-interface frame whose lengths and check bits are those of R46 to R49 and R55. An
operand outside its legal set does NOT make an operation ill-formed: it has the error of R101. -/

namespace Sys2Proof

/-- The check of a SELECT frame's mask: at most 255 bits, since Length is an 8-bit field (R48, R51). -/
def maskFits (mask : BitSeq) : Bool :=
  decide (mask.length ≤ 255)

/-- The check bits of a Query frame are CRC5 of the 17 bits before them (R46, R55, R59). -/
def queryCrcHolds (f : QueryFields) (crc : BitVec 5) : Bool :=
  decide (Machine.ubits 5 crc.toNat = Machine.crc5 (Machine.queryPayload f))

/-- The check bits of a Select frame are CRC16 of every bit before them (R48, R55, R59). -/
def selectCrcHolds (p : Params) (f : SelectFields) (crc : BitVec 16) : Bool :=
  decide (crc = Machine.crc16Of p.crc16 (Machine.selectPayload f))

/-- The check of a SELECT frame's pointer: no legal operands give one beyond the bound `W_PTR`, where there is one (R59, R113 row
11). -/
def framePointerFits (p : Params) (f : SelectFields) : Bool :=
  Machine.pointerFits p.wPtr f.pointer

/-- Well-formedness under the model parameters. `queryadjust` needs its `session` operand under `gen2_9` (R60, R106); a frame
row is legal when its lengths, its pointer and its check bits are (R59) and its layout is the block's (R49). -/
def wellFormed (p : Params) : Instr → Bool
  | .reset => true
  | .cfgWrite _ _ => true
  | .crc5 _ => true
  | .crc16 _ => true
  | .ebv _ => true
  | .pieEncode _ => true
  | .piePreamble _ _ => true
  | .pieFramesync => true
  | .query _ _ _ _ _ _ _ _ => true
  | .queryrep _ => true
  | .select _ _ _ _ _ _ _ _ _ => true
  | .queryadjust session _ _ _ => session.isSome || decide (p.qadjLayout = .table_7)
  | .extract _ _ _ => true
  | .sync _ => true
  | .queryFrame f crc => queryCrcHolds f crc
  | .queryrepFrame _ => true
  | .selectFrame f crc => maskFits f.mask && framePointerFits p f && selectCrcHolds p f crc
  | .queryadjustFrame _ _ => decide (p.qadjLayout = .gen2_9)
  | .queryadjustTable7 _ => decide (p.qadjLayout = .table_7)

end Sys2Proof
end

