-- ==== Sys2Proof/Decode.lean ====
section
/-! DEFINITION. The decoder from the encoded form to an instruction, total and rejecting by name, and after it the encoder:
requests by the selector table and the operand names of spec/30_encoding.md R60 with the carriers of R61, air-interface
frames by the formats of R46 to R49 (the inverse map of R59). -/

namespace Sys2Proof

/-! ## Carriers (R61) -/

/-- A rational; an integer is taken as the rational it is (V27 writes `dr=21`). -/
def asRat : Value → Option Rat
  | .rat v => some v
  | .int v => some v
  | _ => none

def asInt : Value → Option Int
  | .int v => some v
  | _ => none

def asBool : Value → Option Bool
  | .bool v => some v
  | _ => none

/-- A token; a number is the token of its decimal digits (DEDUCED from V27, where `updn=6`, "a number, not a token", reaches
validation; log 11). -/
def asToken : Value → Option String
  | .token t => some t
  | .int v => some (toString v)
  | _ => none

def asBits : Value → Option BitSeq
  | .bits v => some v
  | _ => none

def asFrame : Value → Option FrameArg
  | .frame v => some v
  | _ => none

/-! ## Operands by name (R60) -/

/-- The operand `n` of a request in its carrier type. -/
def operand {α : Type} (carrier : Value → Option α) (args : List (OperandName × Value)) (n : OperandName) :
    Except Reject α :=
  match args.lookup n with
  | none => .error (.missingOperand n)
  | some v =>
    match carrier v with
    | none => .error (.wrongCarrier n)
    | some a => .ok a

/-- An operand that a request may leave out. -/
def operand? {α : Type} (carrier : Value → Option α) (args : List (OperandName × Value)) (n : OperandName) :
    Except Reject (Option α) :=
  match args.lookup n with
  | none => .ok none
  | some v =>
    match carrier v with
    | none => .error (.wrongCarrier n)
    | some a => .ok (some a)

/-- The `session` operand of QUERYADJUST: the layout `gen2_9` needs it, `table_7` ignores it (R60, R106). -/
def sessionOperand (layout : QadjLayout) (args : List (OperandName × Value)) : Except Reject (Option String) :=
  match layout with
  | .gen2_9 => (operand asToken args .session).map some
  | .table_7 => operand? asToken args .session

/-- Every operand of the request is one of `names`, and none is given twice. -/
def checkNames (names : List OperandName) (args : List (OperandName × Value)) : Except Reject Unit :=
  match args.find? (fun a => !names.contains a.1) with
  | some a => .error (.foreignOperand a.1)
  | none => if (args.map (·.1)).Nodup then .ok () else .error .repeatedOperand

/-- The operand names of each selector (R60), in the order of the table. -/
def operandNames : Nat → List OperandName
  | 0x1 => [.rate, .pwD]
  | 0x2 => [.bits]
  | 0x3 => [.bits]
  | 0x4 => [.value]
  | 0x5 => [.bits]
  | 0x6 => [.blf, .dr]
  | 0x8 => [.dr, .m, .trext, .sel, .session, .target, .q, .blf]
  | 0x9 => [.session]
  | 0xA => [.target, .action, .membank, .pointer, .length, .mask, .truncate, .blf, .dr]
  | 0xB => [.session, .updn, .blf, .dr]
  | 0xC => [.nMaxGap, .nT1, .nRn16]
  | 0xD => [.frame]
  | _ => []

/-- The operation a selector and its operands stand for, once the operand names are checked (R60). -/
def decodeArgs (p : Params) (op : BitVec 4) (args : List (OperandName × Value)) : Except Reject Instr :=
  match op.toNat with
  | 0x0 => .ok .reset
  | 0x1 => do
    let rate ← operand asRat args .rate
    let pwD ← operand? asRat args .pwD
    .ok (.cfgWrite rate pwD)
  | 0x2 => do
    let bits ← operand asBits args .bits
    .ok (.crc5 bits)
  | 0x3 => do
    let bits ← operand asBits args .bits
    .ok (.crc16 bits)
  | 0x4 => do
    let value ← operand asInt args .value
    .ok (.ebv value)
  | 0x5 => do
    let bits ← operand asBits args .bits
    .ok (.pieEncode bits)
  | 0x6 => do
    let blf ← operand asRat args .blf
    let dr ← operand asRat args .dr
    .ok (.piePreamble blf dr)
  | 0x7 => .ok .pieFramesync
  | 0x8 => do
    let dr ← operand asRat args .dr
    let m ← operand asInt args .m
    let trext ← operand asBool args .trext
    let sel ← operand asToken args .sel
    let session ← operand asToken args .session
    let target ← operand asToken args .target
    let q ← operand asInt args .q
    let blf ← operand asRat args .blf
    .ok (.query dr m trext sel session target q blf)
  | 0x9 => do
    let session ← operand asToken args .session
    .ok (.queryrep session)
  | 0xA => do
    let target ← operand asToken args .target
    let action ← operand asInt args .action
    let membank ← operand asToken args .membank
    let pointer ← operand asInt args .pointer
    let length ← operand asInt args .length
    let mask ← operand asBits args .mask
    let truncate ← operand asBool args .truncate
    let blf ← operand asRat args .blf
    let dr ← operand asRat args .dr
    .ok (.select target action membank pointer length mask truncate blf dr)
  | 0xB => do
    let session ← sessionOperand p.qadjLayout args
    let updn ← operand asToken args .updn
    let blf ← operand asRat args .blf
    let dr ← operand asRat args .dr
    .ok (.queryadjust session updn blf dr)
  | 0xC => do
    let nMaxGap ← operand asInt args .nMaxGap
    let nT1 ← operand asInt args .nT1
    let nRn16 ← operand asInt args .nRn16
    .ok (.extract nMaxGap nT1 nRn16)
  | 0xD => do
    let frame ← operand asFrame args .frame
    .ok (.sync frame)
  | _ => .error (.reservedSelector op)

/-- Decoding a request: selectors 0xE and 0xF are no operations (R60). -/
def decodeRequest (p : Params) (r : Request) : Except Reject Instr :=
  if 0xE ≤ r.op.toNat then .error (.reservedSelector r.op)
  else do
    checkNames (operandNames r.op.toNat) r.args
    decodeArgs p r.op r.args

/-! ## Air-interface frames (R45 to R49, R56 to R59) -/

/-- Takes the next `n` bits of a frame as the code of the field `f`. -/
def takeField {α : Type} (n : Nat) (code : BitSeq → Option α) (f : Field) (S : BitSeq) :
    Except Reject (α × BitSeq) :=
  if S.length < n then .error .frameLength
  else
    match code (S.take n) with
    | none => .error (.reservedCode f)
    | some a => .ok (a, S.drop n)

/-- A field of `n` bits that holds a number, most significant bit first (R53). -/
def numberOfCode (n : Nat) (S : BitSeq) : Option (BitVec n) :=
  some (BitVec.ofNat n (Machine.uval S))

/-- Nothing follows the last field of a frame (R45). -/
def endOfFrame {α : Type} (a : α) : BitSeq → Except Reject α
  | [] => .ok a
  | _ :: _ => .error .frameLength

/-- Format Q after its opcode (R46). -/
def decodeQueryFrame (S : BitSeq) : Except Reject Instr := do
  let (dr, S) ← takeField 1 Machine.drOfCode .dr S
  let (m, S) ← takeField 2 Machine.mOfCode .m S
  let (trext, S) ← takeField 1 Machine.flagOfCode .trext S
  let (sel, S) ← takeField 2 Machine.selOfCode .sel S
  let (session, S) ← takeField 2 Machine.sessionOfCode .session S
  let (target, S) ← takeField 1 Machine.queryTargetOfCode .target S
  let (q, S) ← takeField 4 (numberOfCode 4) .q S
  let (crc, S) ← takeField 5 (numberOfCode 5) .none S
  endOfFrame (.queryFrame { dr := dr, m := m, trext := trext, sel := sel, session := session, target := target, q := q } crc) S

/-- Format R after its opcode (R47). -/
def decodeQueryRepFrame (S : BitSeq) : Except Reject Instr := do
  let (session, S) ← takeField 2 Machine.sessionOfCode .session S
  endOfFrame (.queryrepFrame session) S

/-- The Pointer field, which ends itself (R58) and is the EBV of its value, without a leading block of zeros (R54). -/
def takePointer (S : BitSeq) : Except Reject (Nat × BitSeq) :=
  match Machine.ebvDecode S with
  | none => .error .frameLength
  | some (v, rest) => if Machine.ebv v ++ rest = S then .ok (v, rest) else .error .pointerNotEbv

/-- Format S after its opcode (R48); the Mask field is as long as the Length field says (R58). -/
def decodeSelectFrame (S : BitSeq) : Except Reject Instr := do
  let (target, S) ← takeField 3 Machine.selectTargetOfCode .target S
  let (action, S) ← takeField 3 (numberOfCode 3) .action S
  let (membank, S) ← takeField 2 Machine.memBankOfCode .membank S
  let (pointer, S) ← takePointer S
  let (length, S) ← takeField 8 (numberOfCode 8) .length S
  let (mask, S) ← takeField length.toNat some .mask S
  let (truncate, S) ← takeField 1 Machine.flagOfCode .truncate S
  let (crc, S) ← takeField 16 (numberOfCode 16) .none S
  endOfFrame (.selectFrame { target := target, action := action, membank := membank, pointer := pointer, mask := mask,
                             truncate := truncate } crc) S

/-- Format A after its opcode (R49): 5 bits are Session and UpDn (`gen2_9`), 3 bits are UpDn alone (`table_7`). -/
def decodeQueryAdjustFrame (S : BitSeq) : Except Reject Instr :=
  if S.length = 5 then do
    let (session, S) ← takeField 2 Machine.sessionOfCode .session S
    let (updn, S) ← takeField 3 Machine.upDnOfCode .updn S
    endOfFrame (.queryadjustFrame session updn) S
  else do
    let (updn, S) ← takeField 3 Machine.upDnOfCode .updn S
    endOfFrame (.queryadjustTable7 updn) S

/-- Decoding a frame by its opcode, which is prefix-free (R56): `00`, `1000`, `1001`, `1010`, and nothing else. -/
def decodeFrame : BitSeq → Except Reject Instr
  | false :: false :: S => decodeQueryRepFrame S
  | true :: false :: false :: false :: S => decodeQueryFrame S
  | true :: false :: false :: true :: S => decodeQueryAdjustFrame S
  | true :: false :: true :: false :: S => decodeSelectFrame S
  | _ => .error .noSuchFormat

/-- The decoder. -/
def decode (p : Params) : Encoded → Except Reject Instr
  | .request r => decodeRequest p r
  | .frame bits => decodeFrame bits

/-! ## The encoder -/

/-- A request from a selector value and its operands. -/
def requestOf (op : Nat) (args : List (OperandName × Value)) : Encoded :=
  .request { op := BitVec.ofNat 4 op, args := args }

/-- An operand that may be left out. -/
def optionalArg (n : OperandName) : Option Value → List (OperandName × Value)
  | none => []
  | some v => [(n, v)]

/-- The encoded form of an instruction: the selector of R60 with its operands in the order of the table, or the bits of a
frame in format order (R45). -/
def encode : Instr → Encoded
  | .reset => requestOf 0x0 []
  | .cfgWrite rate pwD => requestOf 0x1 ([(.rate, .rat rate)] ++ optionalArg .pwD (pwD.map .rat))
  | .crc5 bits => requestOf 0x2 [(.bits, .bits bits)]
  | .crc16 bits => requestOf 0x3 [(.bits, .bits bits)]
  | .ebv value => requestOf 0x4 [(.value, .int value)]
  | .pieEncode bits => requestOf 0x5 [(.bits, .bits bits)]
  | .piePreamble blf dr => requestOf 0x6 [(.blf, .rat blf), (.dr, .rat dr)]
  | .pieFramesync => requestOf 0x7 []
  | .query dr m trext sel session target q blf =>
    requestOf 0x8 [(.dr, .rat dr), (.m, .int m), (.trext, .bool trext), (.sel, .token sel), (.session, .token session),
      (.target, .token target), (.q, .int q), (.blf, .rat blf)]
  | .queryrep session => requestOf 0x9 [(.session, .token session)]
  | .select target action membank pointer length mask truncate blf dr =>
    requestOf 0xA [(.target, .token target), (.action, .int action), (.membank, .token membank), (.pointer, .int pointer),
      (.length, .int length), (.mask, .bits mask), (.truncate, .bool truncate), (.blf, .rat blf), (.dr, .rat dr)]
  | .queryadjust session updn blf dr =>
    requestOf 0xB (optionalArg .session (session.map .token) ++
      [(.updn, .token updn), (.blf, .rat blf), (.dr, .rat dr)])
  | .extract nMaxGap nT1 nRn16 => requestOf 0xC [(.nMaxGap, .int nMaxGap), (.nT1, .int nT1), (.nRn16, .int nRn16)]
  | .sync frame => requestOf 0xD [(.frame, .frame frame)]
  | .queryFrame f crc => .frame (Machine.queryPayload f ++ Machine.ubits 5 crc.toNat)
  | .queryrepFrame session => .frame (Machine.queryRepFrame session)
  | .selectFrame f crc => .frame (Machine.selectPayload f ++ Machine.ubits 16 crc.toNat)
  | .queryadjustFrame session updn => .frame (Machine.queryAdjustFrame { session := some session, updn := updn })
  | .queryadjustTable7 updn => .frame (Machine.queryAdjustFrame { session := none, updn := updn })

/-! ## The words of spec/opcode_table.json -/

/-- Operands to stand beside a selector that is given alone: the table gives an operation row four bits and no operand bits,
since operands travel beside the selector, not inside it. A legal value for each operand (log 20). -/
def tableArgs : Nat → List (OperandName × Value)
  | 0x1 => [(.rate, .int 2000000), (.pwD, .int 12)]
  | 0x2 => [(.bits, .bits [])]
  | 0x3 => [(.bits, .bits [])]
  | 0x4 => [(.value, .int 0)]
  | 0x5 => [(.bits, .bits [])]
  | 0x6 => [(.blf, .int 40000), (.dr, .int 8)]
  | 0x8 => [(.dr, .int 8), (.m, .int 1), (.trext, .bool false), (.sel, .token "all"), (.session, .token "s0"),
      (.target, .token "A"), (.q, .int 0), (.blf, .int 40000)]
  | 0x9 => [(.session, .token "s0")]
  | 0xA => [(.target, .token "inv-s0"), (.action, .int 0), (.membank, .token "FileType"), (.pointer, .int 0),
      (.length, .int 0), (.mask, .bits []), (.truncate, .bool false), (.blf, .int 40000), (.dr, .int 8)]
  | 0xB => [(.session, .token "s0"), (.updn, .token "keep"), (.blf, .int 40000), (.dr, .int 8)]
  | 0xC => [(.nMaxGap, .int 0), (.nT1, .int 0), (.nRn16, .int 0)]
  | 0xD => [(.frame, .frame (.given []))]
  | _ => []

/-- The bits of a frame row's word: R45's formats have 7, 9 or 22 bits where the table gives whole bytes of 8, 16 or 24; a
word that does not fit its format keeps every bit and is rejected for its length. -/
def tableFrameBits (nbits w : Nat) : BitSeq :=
  let width := if nbits ≤ 8 then 7 else if nbits ≤ 16 then 9 else if nbits ≤ 24 then 22 else nbits
  if w < 2 ^ width then Machine.ubits width w else Machine.ubits nbits w

/-- The encoded form a word of spec/opcode_table.json stands for. A word of at most 8 bits below 16 is a selector (so the
words of QUERYREP.frame, which are the same numbers, are selectors too, log 20); any other is a frame read as a number whose
most significant bit is the first-sent bit. -/
def tableEncoded (nbits w : Nat) : Encoded :=
  if nbits ≤ 8 ∧ w < 16 then requestOf w (tableArgs w) else .frame (tableFrameBits nbits w)

/-- The instruction the decoder reads from a word of spec/opcode_table.json, under the default parameters. -/
def decodeTableWord (nbits w : Nat) : Option Instr :=
  (decode Params.default (tableEncoded nbits w)).toOption

end Sys2Proof
end

