-- ==== Sys2Proof/Machine/Capture.lean ====
section
/-! DEFINITION. The host's moves on the memories: the capture file (spec/20_memory.md R32, R33), loading the capture (R31, R42,
spec/70_reset_and_hazards.md R187), changing a Frame in place (R38, R192). None of them is an operation: `status`, `cfg` and
the working registers stay, and there is no response. -/

namespace Sys2Proof.Machine

/-- A finite float given by its exponent and fraction fields: `fraction · 2^-149` for exponent 0, else
`(2^23 + fraction) · 2^(exponent - 150)`. -/
def binary32Magnitude (exponent fraction : Nat) : Rat :=
  if exponent = 0 then mkRat fraction (2 ^ 149)
  else if exponent < 150 then mkRat (2 ^ 23 + fraction : Nat) (2 ^ (150 - exponent))
  else ((2 ^ 23 + fraction) * 2 ^ (exponent - 150) : Nat)

/-- The value of a 32-bit float (R33), read as IEEE 754 binary32 (PRESUMED, the spec's G1, log 16): a dyadic rational, or
`none` for a NaN or an infinity. Negative zero is the rational 0. -/
def binary32 (w : Nat) : Option Rat :=
  let exponent := w / 2 ^ 23 % 2 ^ 8
  let v := binary32Magnitude exponent (w % 2 ^ 23)
  if exponent = 255 then none else some (if w / 2 ^ 31 % 2 = 1 then -v else v)

/-- Four bytes as a 32-bit number, least significant byte first (R32). -/
def littleEndian32 (b0 b1 b2 b3 : BitVec 8) : Nat :=
  b0.toNat + 2 ^ 8 * b1.toNat + 2 ^ 16 * b2.toNat + 2 ^ 24 * b3.toNat

/-- One sample of a capture file: four bytes in-phase, four bytes quadrature (R32). -/
def fileSample (i q : Nat) : Except Refusal IQ :=
  match binary32 i, binary32 q with
  | some re, some im => .ok ⟨re, im⟩
  | _, _ => .error .captureNotFinite

/-- The samples of a capture file (R32): 8 bytes each, no header; a length that is no multiple of 8 has no stated meaning. -/
def fileSamples : List (BitVec 8) → Except Refusal Samples
  | [] => .ok []
  | a0 :: a1 :: a2 :: a3 :: b0 :: b1 :: b2 :: b3 :: rest => do
    let z ← fileSample (littleEndian32 a0 a1 a2 a3) (littleEndian32 b0 b1 b2 b3)
    let zs ← fileSamples rest
    .ok (z :: zs)
  | _ => .error .captureNotWhole

/-- Whether a capture fits the implementation's bound `CAP_MAX`, where it has one (R31). -/
def captureFits (capMax : Option Nat) (n : Nat) : Bool :=
  match capMax with
  | none => true
  | some c => decide (n ≤ c)

/-- The host loads the capture memory with samples (R187). -/
def hostLoadSamples (samples : Samples) (s : State) : Answer :=
  if captureFits s.params.capMax samples.length then .next (loadCapture samples s) else .refused .captureTooLong

/-- The host loads the capture memory from a file's bytes (R32, R33). -/
def hostLoadFile (file : List (BitVec 8)) (s : State) : Answer :=
  match fileSamples file with
  | .error r => .refused r
  | .ok samples => hostLoadSamples samples s

/-- The host changes Frame `index` in place (R38, R192), keeping its length ("a Frame always has exactly `n_rn16` samples"). -/
def hostWriteFrame (index : Nat) (samples : Samples) (s : State) : Answer :=
  match s.mem.frames[index]? with
  | none => .refused (.frameWriteRejected index)
  | some frame =>
    if frame.length = samples.length then .next (setFrame index samples s) else .refused (.frameWriteRejected index)

end Sys2Proof.Machine
end

