-- ==== Sys2Proof/Machine/HostPort.lean ====
section
/-! DEFINITION. Where step finds its next move (spec/10_state.md R19, R20: no program counter; the host issues operations one by
one): the head of `inbox`, held back while `busy = 1`. -/

namespace Sys2Proof.Machine

/-- What the block does next. -/
inductive Turn where
  /-- The host has asked for nothing: the block never starts an operation by itself (R194, R204). -/
  | idle
  /-- A move of the host meets `busy = 1` (R19). -/
  | held
  /-- An encoded form that stands for no instruction. -/
  | reject (why : Reject)
  /-- An instruction is accepted. -/
  | run (i : Instr)
  /-- The host loads or changes a memory. -/
  | load (h : HostMove)
deriving DecidableEq, Repr, Inhabited

/-- The next turn of a state. -/
def fetch (s : State) : Turn :=
  match s.inbox with
  | [] => .idle
  | h :: _ =>
    if s.busy then .held
    else
      match h with
      | .offer w =>
        match decode s.params w with
        | .error why => .reject why
        | .ok i => .run i
      | .move h => .load h

/-- The host's move is taken from the port. -/
def takeInput (s : State) : State := { s with inbox := s.inbox.tail }

/-- The state in which an accepted operation runs: its request taken, `busy = 1` (R19). -/
def accepted (s : State) : State := accept (takeInput s)

/-- A memory move of the host. -/
def hostMove (h : HostMove) (s : State) : Answer :=
  match h with
  | .loadFile file => hostLoadFile file s
  | .loadSamples samples => hostLoadSamples samples s
  | .writeFrame index samples => hostWriteFrame index samples s

/-- The state whose very next step runs the instruction with the given table word: its encoded form at the head of the
host's moves, and `busy = 0`, without which no request is accepted (log 20). -/
def offerWord (s : State) (nbits w : Nat) : State :=
  { s with inbox := .offer (tableEncoded nbits w) :: s.inbox, busy := false }

end Sys2Proof.Machine
end

