-- ==== Sys2Proof/Machine/Step.lean ====
section
/-! DEFINITION. One step of the machine (spec/10_state.md R19, spec/20_memory.md R43): the next move of the host, taken as a
whole. -/

namespace Sys2Proof.Machine

/-- One step: an operation from acceptance to response, a memory move of the host, or nothing. -/
def step (s : State) : Host.Outcome State Fault Refusal :=
  match fetch s with
  | .idle => .next s
  | .held => .refused .heldWhileBusy
  | .reject why => .refused (.undecodable why)
  | .run i => exec i (accepted s)
  | .load h => hostMove h (takeInput s)

/-- `s` with the instruction of a table word offered next; see `offerWord`. -/
def State.withFetchWord (s : State) (nbits w : Nat) : State := offerWord s nbits w

end Sys2Proof.Machine
end

