-- ==== Sys2Proof/Safety.lean ====
section
/-! DEFINITION. The terms claims are stated in: how an operation ends, what it leaves alone, and the invariant of a run. -/

namespace Sys2Proof.Machine

/-- `t` is the end of an operation that began in `s` and delivered the response `r` (R18, R19, R160): `status` is the
response's, `busy` is 0, exactly one response is delivered, the frame bit buffer is empty (R17); the host's pending moves and
the model parameters are as they were. -/
structure EndsWith (s t : State) (r : Response) : Prop where
  status : t.status = r.status
  busy   : t.busy = false
  outbox : t.outbox = s.outbox ++ [r]
  fb     : t.work.fb = []
  inbox  : t.inbox = s.inbox
  params : t.params = s.params

/-- No configuration register and no memory differs: every capture sample, every level of the TX waveform buffer and every
entry of the frame store reads as before. -/
structure KeepsCfgAndMemory (s t : State) : Prop where
  cfg : t.cfg = s.cfg
  mem : t.mem = s.mem

/-- Only the TX waveform buffer differs. -/
structure KeepsAllButTx (s t : State) : Prop where
  cfg       : t.cfg = s.cfg
  capture   : t.mem.capture = s.mem.capture
  frames    : t.mem.frames = s.mem.frames
  dcWindows : t.mem.dcWindows = s.mem.dcWindows

/-- Only the frame store differs. -/
structure KeepsAllButFrameStore (s t : State) : Prop where
  cfg     : t.cfg = s.cfg
  capture : t.mem.capture = s.mem.capture
  tx      : t.mem.tx = s.mem.tx

/-- The response of a success with the result `r`. -/
def okResponse (r : Result) : Response := { status := statusOk, allowed := none, result := r }

/-- The response of an error: its status, the allowed set it names, no result (R170). -/
def errorResponse (e : Failure) : Response :=
  { status := failureStatus e, allowed := failureAllowed e, result := .nothing }

/-! ## How an operation runs -/

/-- `i` completes in `s` with the result `r` and leaves `cfg` and every memory as they were. -/
def Delivers (i : Instr) (s : State) (r : Result) : Prop :=
  ∃ t, exec i s = .next t ∧ EndsWith s t (okResponse r) ∧ KeepsCfgAndMemory s t

/-- `i` completes in `s` with the result `r`, `wf` stands in the TX waveform buffer, and nothing else is written. -/
def Transmits (i : Instr) (s : State) (r : Result) (wf : Waveform) : Prop :=
  ∃ t, exec i s = .next t ∧ EndsWith s t (okResponse r) ∧ t.mem.tx = wf ∧ KeepsAllButTx s t

/-- `i` ends in `s` with the error `e` (R170): a next state in which only `status` is new. -/
def Raises (i : Instr) (s : State) (e : Failure) : Prop :=
  ∃ t, exec i s = .next t ∧ EndsWith s t (errorResponse e) ∧ KeepsCfgAndMemory s t

/-! ## The checks of R113, written as the table has them -/

/-- The first check that does not hold. -/
def firstBad : List (Bool × Failure) → Option Failure
  | [] => none
  | (ok, e) :: rest => if ok then firstBad rest else some e

/-- Rows 1 to 7 of R113 (row 3, TRext, cannot fail). -/
def queryChecks (dr : Rat) (m : Int) (sel session target : String) (q : Int) : List (Bool × Failure) :=
  [(decide (dr ∈ [8, 64 / 3]), .invalid .dr (.rats [8, 64 / 3])),
   (decide (m ∈ [1, 2, 4, 8]), .invalid .m (.ints [1, 2, 4, 8])),
   (decide (sel ∈ ["all", "~sl", "sl"]), .invalid .sel (.tokens ["all", "~sl", "sl"])),
   (decide (session ∈ ["s0", "s1", "s2", "s3"]), .invalid .session (.tokens ["s0", "s1", "s2", "s3"])),
   (decide (target ∈ ["A", "B"]), .invalid .target (.tokens ["A", "B"])),
   (decide (0 ≤ q ∧ q ≤ 15), .invalid .q (.range 0 15))]

/-- Rows 8 to 14 and 16 of R113 (row 14, Truncate, cannot fail), with the mask's own kind in its place. -/
def selectChecks (wPtr : Option Nat) (target : String) (action : Int) (membank : String) (pointer length : Int)
    (mask : BitSeq) (dr : Rat) : List (Bool × Failure) :=
  [(decide (target ∈ ["inv-s0", "inv-s1", "inv-s2", "inv-s3", "sl"]),
      .invalid .target (.tokens ["inv-s0", "inv-s1", "inv-s2", "inv-s3", "sl"])),
   (decide (0 ≤ action ∧ action ≤ 7), .invalid .action (.range 0 7)),
   (decide (membank ∈ ["FileType", "EPC", "TID", "File_0"]),
      .invalid .membank (.tokens ["FileType", "EPC", "TID", "File_0"])),
   (decide (0 ≤ pointer ∧ ∀ w ∈ wPtr, pointer < 2 ^ w), .invalid .pointer (.naturals wPtr)),
   (decide (0 ≤ length ∧ length ≤ 255), .invalid .length (.range 0 255)),
   (decide ((mask.length : Int) = length), .maskLength),
   (decide (dr ∈ [8, 64 / 3]), .invalid .dr (.rats [8, 64 / 3]))]

/-- Rows 5, 15 and 16 of R113: Session under the layout `gen2_9` only (R106). -/
def queryAdjustChecks (layout : QadjLayout) (session : Option String) (updn : String) (dr : Rat) :
    List (Bool × Failure) :=
  (match layout with
    | .gen2_9 => [(decide (∃ t ∈ ["s0", "s1", "s2", "s3"], session = some t),
        Failure.invalid .session (.tokens ["s0", "s1", "s2", "s3"]))]
    | .table_7 => []) ++
  [(decide (updn ∈ ["up", "keep", "down"]), .invalid .updn (.tokens ["up", "keep", "down"])),
   (decide (dr ∈ [8, 64 / 3]), .invalid .dr (.rats [8, 64 / 3]))]

/-- A waveform operation whose operands are in their domains, and the operands of its preamble where it has one (R107). -/
inductive LegalWaveform (p : Params) : Instr → Option (Rat × Rat) → Prop where
  | pieEncode (bits : BitSeq) : LegalWaveform p (.pieEncode bits) none
  | pieFramesync : LegalWaveform p .pieFramesync none
  | queryrep (session : String) (h : session ∈ ["s0", "s1", "s2", "s3"]) : LegalWaveform p (.queryrep session) none
  | piePreamble (blf dr : Rat) (h : dr ∈ [8, 64 / 3]) : LegalWaveform p (.piePreamble blf dr) (some (blf, dr))
  | query (dr : Rat) (m : Int) (trext : Bool) (sel session target : String) (q : Int) (blf : Rat)
      (h : firstBad (queryChecks dr m sel session target q) = none) :
      LegalWaveform p (.query dr m trext sel session target q blf) (some (blf, dr))
  | select (target : String) (action : Int) (membank : String) (pointer length : Int) (mask : BitSeq) (truncate : Bool)
      (blf dr : Rat) (h : firstBad (selectChecks p.wPtr target action membank pointer length mask dr) = none) :
      LegalWaveform p (.select target action membank pointer length mask truncate blf dr) (some (blf, dr))
  | queryadjust (session : Option String) (updn : String) (blf dr : Rat)
      (h : firstBad (queryAdjustChecks p.qadjLayout session updn dr) = none) :
      LegalWaveform p (.queryadjust session updn blf dr) (some (blf, dr))

/-! ## The configurations a waveform operation is admitted under (R82, R89) -/

/-- `cfg.rate` is set and positive, `cfg.pw_d` is positive, `n_pw >= 1` (R82). -/
structure ConfigAdmitted (s : State) (rate : Rat) : Prop where
  set     : s.cfg.rate = some rate
  ratePos : 0 < rate
  pwPos   : 0 < s.cfg.pwD
  pulse   : 1 ≤ ⌊s.cfg.pwD * rate / 1000000⌋

/-- The configuration is admitted, `blf > 0`, and `n_trcal >= n_pw` (R89). -/
structure PreambleAdmitted (s : State) (rate blf dr : Rat) : Prop extends ConfigAdmitted s rate where
  blfPos : 0 < blf
  trcal  : ⌊s.cfg.pwD * rate / 1000000⌋ ≤ ⌊dr * rate / blf⌋

/-- The preamble of an operation (R90): the counts of the configuration, and `floor(dr · rate / blf)` samples of TRcal (R89). -/
def preambleOf (s : State) (rate blf dr : Rat) : Waveform :=
  preamble (timingOf rate s.cfg.pwD) ⌊dr * rate / blf⌋.toNat

/-- The frame-sync of an operation (R91). -/
def frameSyncOf (s : State) (rate : Rat) : Waveform :=
  frameSync (timingOf rate s.cfg.pwD)

/-- The rendering of a bit sequence under the configuration (R85). -/
def renderOf (s : State) (rate : Rat) (bits : BitSeq) : Waveform :=
  encodeBits (timingOf rate s.cfg.pwD) bits

/-! ## The reference as the spec lists it -/

/-- The places of the ones of the reference (R146): "at `n` in 0..49, 75..99, 150..174 and 250..299". -/
def onesOfReference : Finset ℕ :=
  Finset.Icc 0 49 ∪ Finset.Icc 75 99 ∪ Finset.Icc 150 174 ∪ Finset.Icc 250 299

/-! ## The invariant of a run -/

/-- What `status` may hold (R18, R164, R163, R167): never `FrameOutOfBounds` or `ClusterCountMismatch`; a field exactly when
the kind is `InvalidParameter`; never the fields that are not reported. -/
def statusLegal (st : Status) : Bool :=
  decide (st.kind ≠ .frameOutOfBounds) && decide (st.kind ≠ .clusterCountMismatch) &&
  (decide (st.field ≠ .none) == decide (st.kind = .invalidParameter)) &&
  decide (st.field ≠ .trext) && decide (st.field ≠ .mask) && decide (st.field ≠ .truncate)

/-- A response is legal when its status is, when an error carries no result (R170), and when it names an allowed set exactly
for an `InvalidParameter` (R101). -/
def responseLegal (r : Response) : Bool :=
  statusLegal r.status && (decide (r.status.kind = .ok) || decide (r.result = .nothing)) &&
  (r.allowed.isSome == decide (r.status.kind = .invalidParameter))

/-- What the configuration registers may hold (R11, R12): positive rationals, or no rate at all. -/
def cfgLegal (c : Cfg) : Bool :=
  decide (0 < c.pwD) && (match c.rate with | none => true | some r => decide (0 < r))

/-- The invariant of a run: between steps no operation is running (R19), the configuration, the status and every delivered
response are legal, `status` is the last response's (R18), the memories have their form (R38), the capture fits `CAP_MAX`
(R31), and the frame bit buffer is empty (R17). -/
structure Inv (s : State) : Prop where
  idle      : s.busy = false
  cfg       : cfgLegal s.cfg = true
  status    : statusLegal s.status = true
  responses : ∀ r ∈ s.outbox, responseLegal r = true
  last      : ∀ r, s.outbox.getLast? = some r → r.status = s.status
  mem       : s.mem.wf = true
  capture   : captureFits s.params.capMax s.mem.capture.length = true
  fb        : s.work.fb = []

end Sys2Proof.Machine
end

