-- ==== Sys2Proof/Certificates/Slice0/Obligations.lean ====
section
/-! DEFINITION. The statements about the model, for the provers. No value of a free value (the working registers, `Config.freeWork`) is
relied on by any of them, and every one holds for every value of the model parameters in `State.params` unless it names one. -/

open Sys2Proof Sys2Proof.Machine

/-! ## Encoding -/

/-- Words written out from the spec (R60's selector table; the frames of V10, V16, V19, V24, V25) decode to the instructions
they stand for. The model's own in it: integers taken as the rationals `rate`, `blf` and `dr` (log 11), a frame-store entry as
SYNC's operand (log 15), the check bits of the Select word (log 2), the QueryAdjust layouts and codes (log 3), the Select codes
(log 4). -/
def Obligations.WordsOfTheSpecDecode : Prop :=
  ∀ p : Params,
    decode p (.request ⟨0x0, []⟩) = .ok .reset ∧
    decode p (.request ⟨0x1, [(.rate, .int 2000000)]⟩) = .ok (.cfgWrite 2000000 none) ∧
    decode p (.request ⟨0x2, [(.bits, .bits [true, true, true, true, true, false])]⟩) =
      .ok (.crc5 [true, true, true, true, true, false]) ∧
    decode p (.request ⟨0x6, [(.dr, .int 8), (.blf, .int 40000)]⟩) = .ok (.piePreamble 40000 8) ∧
    decode p (.request ⟨0x9, [(.session, .token "s2")]⟩) = .ok (.queryrep "s2") ∧
    decode p (.request ⟨0xC, [(.nMaxGap, .int 100), (.nT1, .int 50), (.nRn16, .int 400)]⟩) = .ok (.extract 100 50 400) ∧
    decode p (.request ⟨0xD, [(.frame, .frame (.stored 0))]⟩) = .ok (.sync (.stored 0)) ∧
    decode p (.frame [false, false, true, false]) = .ok (.queryrepFrame .s2) ∧
    decode p (.frame [true, false, false, true, false, true, true, true, false]) = .ok (.queryadjustFrame .s1 .up) ∧
    decode p (.frame [true, false, false, true, true, true, false]) = .ok (.queryadjustTable7 .up) ∧
    decode p (.frame [true, false, false, false, false, false, false, false, false, false, false, false, false, false, false,
        false, false, true, false, false, false, false]) =
      .ok (.queryFrame ⟨.dr8, .m1, false, .all, .s0, .a, 0⟩ 0b10000) ∧
    decode p (.frame ([true, false, true, false] ++ [false, false, false] ++ [false, false, false] ++ [false, true] ++
        [false, false, false, false, false, false, false, false] ++ [false, false, false, false, false, false, false, false] ++
        [false] ++ [false, true, false, true, false, false, false, false, false, true, false, true, false, false, false, true])) =
      .ok (.selectFrame ⟨.invS0, 0, .epc, 0, [], false⟩ 0x5051)

/-- Decoding an encoded well-formed instruction gives it back, with every operand at every value. -/
def Obligations.DecodeInvertsEncode : Prop :=
  ∀ (p : Params) (i : Instr), wellFormed p i = true → decode p (encode i) = .ok i

/-- A request may give its operands in any order (R60). -/
def Obligations.RequestOperandsComeInAnyOrder : Prop :=
  ∀ (p : Params) (op : BitVec 4) (args args' : List (OperandName × Value)) (i : Instr),
    args.Perm args' → decode p (.request ⟨op, args⟩) = .ok i → decode p (.request ⟨op, args'⟩) = .ok i

/-- The selectors 0xE and 0xF are no operations: the decoder says so and step refuses the request (R60). -/
def Obligations.ReservedSelectorsAreRefused : Prop :=
  ∀ (op : BitVec 4) (args : List (OperandName × Value)), op = 0xE ∨ op = 0xF →
    (∀ p, decode p (.request ⟨op, args⟩) = .error (.reservedSelector op)) ∧
    ∀ (s : State) (rest : List HostInput), s.busy = false → s.inbox = .offer (.request ⟨op, args⟩) :: rest →
      step s = .refused (.undecodable (.reservedSelector op))

/-- The bits before the check bits determine the fields of every frame (R59: the operands are unique). -/
def Obligations.FrameBitsDetermineTheFields : Prop :=
  (∀ f g : QueryFields, queryPayload f = queryPayload g → f = g) ∧
  (∀ a b : Session, queryRepFrame a = queryRepFrame b → a = b) ∧
  (∀ f g : QueryAdjustFields, queryAdjustFrame f = queryAdjustFrame g → f = g) ∧
  (∀ f g : SelectFields, f.mask.length ≤ 255 → g.mask.length ≤ 255 → selectPayload f = selectPayload g → f = g)

/-- The decoder of the source's round-trip property returns the value at the front of any stream and leaves the rest; a value has
`8 · nblk` bits, with `nblk` 1 up to 127, 2 up to 16383, 3 up to 2097151 (R54). -/
def Obligations.EbvReadsBack : Prop :=
  (∀ (v : ℕ) (rest : BitSeq), ebvDecode (ebv v ++ rest) = some (v, rest)) ∧
  (∀ v : ℕ, (ebv v).length = 8 * nblk v) ∧
  (∀ v : ℕ, nblk v = 1 ↔ v ≤ 127) ∧ (∀ v : ℕ, nblk v = 2 ↔ 128 ≤ v ∧ v ≤ 16383) ∧
  (∀ v : ℕ, nblk v = 3 ↔ 16384 ≤ v ∧ v ≤ 2097151)

/-! ## The step -/

/-- When the host's next move decodes to an instruction, step is exec of it in the state with the move taken and `busy = 1`;
when it decodes to none, step refuses it by the decoder's reason. -/
def Obligations.StepRunsTheDecodedInstruction : Prop :=
  ∀ (s : State) (w : Encoded) (rest : List HostInput), s.busy = false → s.inbox = .offer w :: rest →
    (∀ i, decode s.params w = .ok i → step s = exec i { s with inbox := rest, busy := true }) ∧
    (∀ why, decode s.params w = .error why → step s = .refused (.undecodable why))

/-- Power-up and RESET produce no waveform and start no operation; without a move of the host nothing happens (R194). The model's
own in it: a step without a pending move answers the same state (log 13), and RESET leaves the pending moves and delivers a
response of its own (log 10). -/
def Obligations.NoOperationStartsByItself : Prop :=
  (∀ s : State, s.inbox = [] → step s = .next s) ∧
  (State.reset.mem.tx = [] ∧ State.reset.outbox = [] ∧ step State.reset = .next State.reset) ∧
  (∀ s : State, ∃ t, exec .reset s = .next t ∧ t.mem.tx = [] ∧ t.inbox = s.inbox ∧
    t.outbox = s.outbox ++ [okResponse .nothing])

/-- No move of the host is taken while `busy = 1` (R19; the model's choice of refusing it is log 12). -/
def Obligations.MovesAreHeldWhileBusy : Prop :=
  ∀ (s : State), s.busy = true → s.inbox ≠ [] → step s = .refused .heldWhileBusy

/-- The state after reset meets the invariant. -/
def Obligations.ResetMeetsTheInvariant : Prop := Inv State.reset

/-- Every step keeps the invariant, from every state that meets it. -/
def Obligations.EveryStepKeepsTheInvariant : Prop :=
  ∀ s t : State, Inv s → step s = .next t → Inv t

/-! ## Rules about every operation -/

/-- An operation that ends delivers exactly one response, which carries the new `status`; `busy` is 0; an error's response
carries no result; the host's moves and the parameters stay (R160, R44). -/
def Obligations.EveryOperationDeliversOneResponse : Prop :=
  ∀ (i : Instr) (s t : State), exec i s = .next t →
    ∃ r : Response, EndsWith s t r ∧ (r.status.kind ≠ .ok → r.result = .nothing)

/-- After an error nothing but `status` has changed: not `cfg`, no memory; the field is recorded for `InvalidParameter` only, the
response carries no result, `busy` is 0, the frame bit buffer is discarded (R170). -/
def Obligations.ErrorsChangeOnlyTheStatus : Prop :=
  ∀ (i : Instr) (s t : State), exec i s = .next t → t.status.kind ≠ .ok →
    KeepsCfgAndMemory s t ∧ t.busy = false ∧ t.work.fb = [] ∧ t.inbox = s.inbox ∧ t.params = s.params ∧
    (t.status.field ≠ .none → t.status.kind = .invalidParameter) ∧
    ∃ r : Response, t.outbox = s.outbox ++ [r] ∧ r.status = t.status ∧ r.result = .nothing

/-- Which operations raise which kind (R161 to R165); `FrameOutOfBounds` and `ClusterCountMismatch` never appear, and neither do
the fields TRext, Mask and Truncate (R167). -/
def Obligations.ErrorKindsHaveTheirRaisers : Prop :=
  ∀ (i : Instr) (s t : State), exec i s = .next t →
    (t.status.kind = .invalidParameter →
      (∃ v, i = .ebv v) ∨ (∃ blf dr, i = .piePreamble blf dr) ∨ (∃ v, i = .queryrep v) ∨
      (∃ dr m trext sel session target q blf, i = .query dr m trext sel session target q blf) ∨
      (∃ target action membank pointer length mask truncate blf dr,
        i = .select target action membank pointer length mask truncate blf dr) ∨
      (∃ session updn blf dr, i = .queryadjust session updn blf dr)) ∧
    (t.status.kind = .maskLengthMismatch → ∃ target action membank pointer length mask truncate blf dr,
      i = .select target action membank pointer length mask truncate blf dr) ∧
    (t.status.kind = .insufficientSamples → ∃ arg, i = .sync arg) ∧
    t.status.kind ≠ .frameOutOfBounds ∧ t.status.kind ≠ .clusterCountMismatch ∧
    t.status.field ≠ .trext ∧ t.status.field ≠ .mask ∧ t.status.field ≠ .truncate

/-- `MaskLengthMismatch` is raised by SELECT only, exactly when the mask's length differs from `length` and the fields before the
mask are in their domains, and records nothing beyond the kind (R162). -/
def Obligations.MaskMismatchIsRaisedBySelectOnly : Prop :=
  (∀ (i : Instr) (s t : State), exec i s = .next t → t.status.kind = .maskLengthMismatch →
    t.status.field = .none ∧
    ∃ target action membank pointer length mask truncate blf dr,
      i = .select target action membank pointer length mask truncate blf dr ∧ (mask.length : ℤ) ≠ length ∧
      firstBad ((selectChecks s.params.wPtr target action membank pointer length mask dr).take 5) = none) ∧
  (∀ target action membank pointer length mask truncate blf dr s, (mask.length : ℤ) ≠ length →
    firstBad ((selectChecks s.params.wPtr target action membank pointer length mask dr).take 5) = none →
    Raises (.select target action membank pointer length mask truncate blf dr) s .maskLength)

/-- `cfg` is written by CFG_WRITE and RESET only (R11, R12). -/
def Obligations.OnlyCfgWriteAndResetWriteCfg : Prop :=
  ∀ (i : Instr) (s t : State), exec i s = .next t → t.cfg ≠ s.cfg → i = .reset ∨ ∃ rate pwD, i = .cfgWrite rate pwD

/-- The block never writes the capture memory: every sample reads as before, and `cap_len` is as before (R31). -/
def Obligations.NoOperationWritesTheCapture : Prop :=
  ∀ (i : Instr) (s t : State), exec i s = .next t →
    capLen t.mem = capLen s.mem ∧ ∀ k, captureAt t.mem k = captureAt s.mem k

/-- The frame store is written by EXTRACT and RESET only (R38, R170). -/
def Obligations.OnlyExtractAndResetWriteTheFrameStore : Prop :=
  ∀ (i : Instr) (s t : State), exec i s = .next t →
    t.mem.frames ≠ s.mem.frames ∨ t.mem.dcWindows ≠ s.mem.dcWindows → i = .reset ∨ ∃ a b c, i = .extract a b c

/-- The TX waveform buffer changes only by RESET, or by an operation that ends OK and whose response carries the waveform now in
the buffer (R36, R193). -/
def Obligations.TxBufferHoldsTheDeliveredWaveform : Prop :=
  ∀ (i : Instr) (s t : State), exec i s = .next t → t.mem.tx ≠ s.mem.tx →
    (i = .reset ∧ t.mem.tx = []) ∨
    t.status = statusOk ∧ (t.outbox = s.outbox ++ [okResponse (.waveform t.mem.tx)] ∨
      ∃ fb, t.outbox = s.outbox ++ [okResponse (.frame fb t.mem.tx)])

/-- No operation reads the capture outside `Capture[0 : cap_len]` (R34, R205): exec never faults. -/
def Obligations.NoOperationFaults : Prop :=
  ∀ (i : Instr) (s : State) (f : Fault), exec i s ≠ .fault f

/-- Two equal operations under equal `cfg`, equal capture memory and equal parameters give equal responses, or are refused alike,
whatever else differs between the states (R23). SYNC's operand is the frame it names; that it may name an entry of the frame store
is log 15. -/
def Obligations.ResponsesHaveNoHiddenInputs : Prop :=
  ∀ (i : Instr) (s s' : State), s.cfg = s'.cfg → s.mem.capture = s'.mem.capture → s.params = s'.params →
    (∀ arg, i = .sync arg → frameOf s.mem arg = frameOf s'.mem arg) →
    (∀ t, exec i s = .next t → ∃ t' r, exec i s' = .next t' ∧ t.outbox = s.outbox ++ [r] ∧ t'.outbox = s'.outbox ++ [r]) ∧
    (∀ r, exec i s = .refused r → exec i s' = .refused r)

/-! ## System operations -/

/-- RESET: `cfg.rate` unset, `cfg.pw_d` 12, `status` OK, buffers and frame store empty, the capture as it was (R185). -/
def Obligations.ResetClearsTheBlock : Prop :=
  ∀ s : State, ∃ t, exec .reset s = .next t ∧ EndsWith s t (okResponse .nothing) ∧ t.cfg = ⟨none, 12⟩ ∧
    t.mem.tx = [] ∧ t.mem.frames = [] ∧ t.mem.dcWindows = [] ∧ t.mem.capture = s.mem.capture

/-- CFG_WRITE: positive values are written, an omitted `pw_d` stays, no buffer changes; a non-positive value is refused (R94). -/
def Obligations.CfgWriteSetsTheConfiguration : Prop :=
  ∀ (rate : ℚ) (pwD : Option ℚ) (s : State),
    ((0 < rate ∧ ∀ v ∈ pwD, 0 < v) →
      ∃ t, exec (.cfgWrite rate pwD) s = .next t ∧ EndsWith s t (okResponse .nothing) ∧ t.cfg.rate = some rate ∧
        (pwD = none → t.cfg.pwD = s.cfg.pwD) ∧ (∀ v, pwD = some v → t.cfg.pwD = v) ∧ t.mem = s.mem) ∧
    ((rate ≤ 0 ∨ ∃ v ∈ pwD, v ≤ 0) → exec (.cfgWrite rate pwD) s = .refused .cfgValueNotPositive)

/-! ## Check bits -/

/-- The transition table of CRC5 (R66), its four rows. -/
def Obligations.Crc5TransitionTable : Prop :=
  ∀ c0 c1 c2 c3 : Bit,
    crc5Step ⟨c0, c1, c2, c3, true⟩ true = ⟨false, c0, c1, c2, c3⟩ ∧
    crc5Step ⟨c0, c1, c2, c3, true⟩ false = ⟨true, c0, c1, !c2, c3⟩ ∧
    crc5Step ⟨c0, c1, c2, c3, false⟩ true = ⟨true, c0, c1, !c2, c3⟩ ∧
    crc5Step ⟨c0, c1, c2, c3, false⟩ false = ⟨false, c0, c1, c2, c3⟩

/-- CRC5 completes on every bit sequence with the register of R67's closed form, from (1,0,0,1,0), read in reverse order. -/
def Obligations.Crc5CompletesByTheClosedForm : Prop :=
  ∀ (bits : BitSeq) (s : State),
    let c : Bit × Bit × Bit × Bit × Bit := bits.foldl
      (fun c b => (b ^^ c.2.2.2.2, c.1, c.2.1, c.2.2.1 ^^ (b ^^ c.2.2.2.2), c.2.2.2.1)) (true, false, false, true, false)
    Delivers (.crc5 bits) s (.bits [c.2.2.2.2, c.2.2.2.1, c.2.2.1, c.2.1, c.1])

/-- The residue law of CRC5 (R69 (c)). -/
def Obligations.Crc5ResidueIsZero : Prop :=
  ∀ F : BitSeq, crc5 (F ++ crc5 F) = [false, false, false, false, false]

/-- CRC5 is affine over inputs of one length (R69 (d)). -/
def Obligations.Crc5IsLinear : Prop :=
  ∀ x y z : BitSeq, x.length = y.length → y.length = z.length →
    List.zipWith xor (List.zipWith xor (crc5 x) (crc5 y)) (crc5 z) =
      crc5 (List.zipWith xor (List.zipWith xor x y) z)

/-- CRC16 completes on every bit sequence with sixteen bits, those of the parameter `CRC16`, most significant first; under the
default parameter (general knowledge, log 2) they are those of R71's loop. -/
def Obligations.Crc16Completes : Prop :=
  ∀ (bits : BitSeq) (s : State), ∃ S : BitSeq,
    Delivers (.crc16 bits) s (.bits S) ∧ S.length = 16 ∧ uval S = (crc16Of s.params.crc16 bits).toNat ∧
    (s.params.crc16 = .gen2 → uval S = (bits.foldl
      (fun (r : BitVec 16) b => if (r.msb ^^ b) then (r <<< 1) ^^^ 0x1021#16 else r <<< 1) 0xFFFF#16 ^^^ 0xFFFF#16).toNat)

/-- The residue law of the default CRC16 (R72): its loop over `F ++ CRC16(F)` leaves 0x1D0F. It rests on R71, general knowledge. -/
def Obligations.Crc16Residue : Prop :=
  ∀ F : BitSeq, crc16Run (F ++ crc16Bits .gen2 F) = 0x1D0F#16

/-! ## PulseIntervalEncoder -/

/-- Each sample count is the floor of its own exact product (R81, R89), and the source's example: 24, 48, 96, 144, 24. -/
def Obligations.SampleCountsAreExactFloors : Prop :=
  (∀ rate pwD : ℚ, 0 < rate → 0 < pwD →
    ((timingOf rate pwD).nPw : ℤ) = ⌊pwD * rate / 1000000⌋ ∧
    ((timingOf rate pwD).nData0 : ℤ) = ⌊2 * pwD * rate / 1000000⌋ ∧
    ((timingOf rate pwD).nData1 : ℤ) = ⌊4 * pwD * rate / 1000000⌋ ∧
    ((timingOf rate pwD).nRtcal : ℤ) = ⌊6 * pwD * rate / 1000000⌋ ∧
    ((timingOf rate pwD).nDelim : ℤ) = ⌊12 * rate / 1000000⌋ ∧
    ∀ blf : ℚ, 0 < blf → (trcalCount rate blf .dr8 : ℤ) = ⌊8 * rate / blf⌋ ∧
      (trcalCount rate blf .dr64_3 : ℤ) = ⌊64 * rate / (3 * blf)⌋) ∧
  timingOf 2000000 12 = { rate := 2000000, nPw := 24, nData0 := 48, nData1 := 96, nRtcal := 144, nDelim := 24 }

/-- A pulse of `n` samples, `n >= n_pw`, is high for `n - n_pw` samples and then low for `n_pw` (R83); data0 and data1 are the pulses
of `n_data0` and `n_data1` samples (R84). -/
def Obligations.PulsesAreHighThenLow : Prop :=
  (∀ (t : Timing) (n : ℕ), t.nPw ≤ n → (pulse t n).length = n ∧
    (∀ k, k < n - t.nPw → (pulse t n)[k]? = some Level.H) ∧
    (∀ k, n - t.nPw ≤ k → k < n → (pulse t n)[k]? = some Level.L)) ∧
  (∀ t : Timing, symbol t false = pulse t t.nData0 ∧ symbol t true = pulse t t.nData1) ∧
  (∀ (t : Timing) (n : ℕ), frameSync t = delimiter t ++ pulse t t.nData0 ++ pulse t t.nRtcal ∧
    preamble t n = delimiter t ++ pulse t t.nData0 ++ pulse t t.nRtcal ++ pulse t n)

/-- Under an admitted configuration the length of `encode(bits)` is the sum of the symbol lengths and its low samples are
`len(bits) · n_pw` (R86), with the source's 96 and 48 at rate 2e6 and `pw_d` 12. -/
def Obligations.EncodedLengthIsTheSumOfSymbols : Prop :=
  (∀ (s : State) (rate : ℚ) (bits : BitSeq), ConfigAdmitted s rate →
    (renderOf s rate bits).length =
      (bits.map (fun b => if b then (timingOf rate s.cfg.pwD).nData1 else (timingOf rate s.cfg.pwD).nData0)).sum ∧
    (renderOf s rate bits).count .L = bits.length * (timingOf rate s.cfg.pwD).nPw) ∧
  (∀ bits : BitSeq, (encodeBits (timingOf 2000000 12) bits).length = (bits.map (fun b => if b then 96 else 48)).sum)

/-- PIE_ENCODE completes under an admitted configuration with the symbols of its bits in order, and writes the TX waveform
buffer only (R85). -/
def Obligations.PieEncodeCompletes : Prop :=
  ∀ (bits : BitSeq) (s : State) (rate : ℚ), ConfigAdmitted s rate →
    let wf := (bits.map (fun b => if b then pulse (timingOf rate s.cfg.pwD) (timingOf rate s.cfg.pwD).nData1
      else pulse (timingOf rate s.cfg.pwD) (timingOf rate s.cfg.pwD).nData0)).flatten
    Transmits (.pieEncode bits) s (.waveform wf) wf

/-- PIE_PREAMBLE completes under an admitted configuration for both divide ratios, with `n_delim + n_data0 + n_rtcal + n_trcal`
samples; a `dr` that is neither 8 nor 64/3 is `InvalidParameter(DR)` under every configuration (R90, R101). -/
def Obligations.PiePreambleCompletes : Prop :=
  (∀ (blf dr : ℚ) (s : State) (rate : ℚ), dr = 8 ∨ dr = 64 / 3 → PreambleAdmitted s rate blf dr →
    Transmits (.piePreamble blf dr) s (.waveform (preambleOf s rate blf dr)) (preambleOf s rate blf dr) ∧
    ((preambleOf s rate blf dr).length : ℤ) = ⌊12 * rate / 1000000⌋ + ⌊2 * s.cfg.pwD * rate / 1000000⌋ +
      ⌊6 * s.cfg.pwD * rate / 1000000⌋ + ⌊dr * rate / blf⌋) ∧
  (∀ (blf dr : ℚ) (s : State), dr ≠ 8 → dr ≠ 64 / 3 →
    Raises (.piePreamble blf dr) s (.invalid .dr (.rats [8, 64 / 3])))

/-- PIE_FRAMESYNC completes under an admitted configuration; a preamble is a frame-sync and a TRcal pulse (R91). -/
def Obligations.PieFramesyncCompletes : Prop :=
  ∀ (s : State) (rate : ℚ), ConfigAdmitted s rate →
    Transmits .pieFramesync s (.waveform (frameSyncOf s rate)) (frameSyncOf s rate) ∧
    ((frameSyncOf s rate).length : ℤ) = ⌊12 * rate / 1000000⌋ + ⌊2 * s.cfg.pwD * rate / 1000000⌋ +
      ⌊6 * s.cfg.pwD * rate / 1000000⌋ ∧
    ∀ blf dr : ℚ, preambleOf s rate blf dr =
      frameSyncOf s rate ++ pulse (timingOf rate s.cfg.pwD) ⌊dr * rate / blf⌋.toNat

/-! ## CommandEncoder -/

/-- EBV completes on every natural number with its EBV bits; a negative value is `InvalidParameter(Pointer)` (R102), which names
the legal set of the field Pointer (R101, R113 row 11). That the set stands in the response, and that EBV itself has no bound, is
log 26. -/
def Obligations.EbvCompletes : Prop :=
  (∀ (v : ℕ) (s : State), Delivers (.ebv v) s (.bits (ebv v))) ∧
  (∀ (v : ℤ) (s : State), v < 0 → Raises (.ebv v) s (.invalid .pointer (.naturals s.params.wPtr)))

/-- QUERY completes on every legal operand set under an admitted configuration: the 17 bits of R46 with the codes of R50, their
CRC5, 22 bits in all, behind the preamble of the same `dr` (R103, R107, R108). -/
def Obligations.QueryTransmitsItsFrame : Prop :=
  ∀ (dr : ℚ) (m : ℤ) (trext : Bool) (sel session target : String) (q : ℕ) (blf : ℚ) (s : State) (rate : ℚ)
    (cDr cM cSel cSession cTarget : BitSeq),
    (dr, cDr) ∈ [((8 : ℚ), [false]), (64 / 3, [true])] →
    (m, cM) ∈ [((1 : ℤ), [false, false]), (2, [false, true]), (4, [true, false]), (8, [true, true])] →
    (sel, cSel) ∈ [("all", [false, false]), ("~sl", [true, false]), ("sl", [true, true])] →
    (session, cSession) ∈ [("s0", [false, false]), ("s1", [false, true]), ("s2", [true, false]), ("s3", [true, true])] →
    (target, cTarget) ∈ [("A", [false]), ("B", [true])] → q ≤ 15 → PreambleAdmitted s rate blf dr →
    let payload := [true, false, false, false] ++ cDr ++ cM ++ [trext] ++ cSel ++ cSession ++ cTarget ++ ubits 4 q
    let fb := payload ++ crc5 payload
    let wf := preambleOf s rate blf dr ++ renderOf s rate fb
    Transmits (.query dr m trext sel session target q blf) s (.frame fb wf) wf ∧ payload.length = 17 ∧ fb.length = 22

/-- QUERYREP completes on every session under an admitted configuration with 4 bits and no check bits behind a frame-sync, and
with any other session is `InvalidParameter(Session)`; the example `session=s2` gives 0010 (R104). -/
def Obligations.QueryrepTransmitsItsFrame : Prop :=
  (∀ (session : String) (s : State) (rate : ℚ) (cSession : BitSeq),
    (session, cSession) ∈ [("s0", [false, false]), ("s1", [false, true]), ("s2", [true, false]), ("s3", [true, true])] →
    ConfigAdmitted s rate →
    let fb := [false, false] ++ cSession
    let wf := frameSyncOf s rate ++ renderOf s rate fb
    Transmits (.queryrep session) s (.frame fb wf) wf ∧ fb.length = 4 ∧
      (session = "s2" → fb = [false, false, true, false])) ∧
  (∀ (session : String) (s : State), session ∉ ["s0", "s1", "s2", "s3"] →
    Raises (.queryrep session) s (.invalid .session (.tokens ["s0", "s1", "s2", "s3"])))

/-- SELECT completes on every legal operand set under an admitted configuration: the fields of R48 with the codes of R51 (in
listing order, log 4), CRC16 of every bit before it, `37 + 8·nblk + length` bits in all, behind the preamble (R105, R107). -/
def Obligations.SelectTransmitsItsFrame : Prop :=
  ∀ (target : String) (action : ℕ) (membank : String) (pointer : ℕ) (mask : BitSeq) (truncate : Bool) (blf dr : ℚ)
    (s : State) (rate : ℚ) (cTarget cBank : BitSeq),
    (target, cTarget) ∈ [("inv-s0", [false, false, false]), ("inv-s1", [false, false, true]),
      ("inv-s2", [false, true, false]), ("inv-s3", [false, true, true]), ("sl", [true, false, false])] →
    (membank, cBank) ∈ [("FileType", [false, false]), ("EPC", [false, true]), ("TID", [true, false]),
      ("File_0", [true, true])] →
    action ≤ 7 → mask.length ≤ 255 → (∀ w ∈ s.params.wPtr, pointer < 2 ^ w) → dr = 8 ∨ dr = 64 / 3 →
    PreambleAdmitted s rate blf dr →
    let payload := [true, false, true, false] ++ cTarget ++ ubits 3 action ++ cBank ++ ebv pointer ++
      ubits 8 mask.length ++ mask ++ [truncate]
    let fb := payload ++ ubits 16 (crc16Of s.params.crc16 payload).toNat
    let wf := preambleOf s rate blf dr ++ renderOf s rate fb
    Transmits (.select target action membank pointer mask.length mask truncate blf dr) s (.frame fb wf) wf ∧
      fb.length = 37 + 8 * nblk pointer + mask.length

/-- QUERYADJUST completes on every legal operand set under an admitted configuration: opcode, Session, UpDn under `gen2_9`, opcode
and UpDn under `table_7`, where `session` is ignored; no check bits, behind the preamble (R106; layout and codes log 3). -/
def Obligations.QueryadjustTransmitsItsFrame : Prop :=
  ∀ (session : Option String) (updn : String) (blf dr : ℚ) (s : State) (rate : ℚ) (cUpDn : BitSeq),
    (updn, cUpDn) ∈ [("up", [true, true, false]), ("keep", [false, false, false]), ("down", [false, true, true])] →
    dr = 8 ∨ dr = 64 / 3 → PreambleAdmitted s rate blf dr →
    (∀ token cSession, s.params.qadjLayout = .gen2_9 → session = some token →
      (token, cSession) ∈ [("s0", [false, false]), ("s1", [false, true]), ("s2", [true, false]), ("s3", [true, true])] →
      let fb := [true, false, false, true] ++ cSession ++ cUpDn
      let wf := preambleOf s rate blf dr ++ renderOf s rate fb
      Transmits (.queryadjust session updn blf dr) s (.frame fb wf) wf) ∧
    (s.params.qadjLayout = .table_7 →
      let fb := [true, false, false, true] ++ cUpDn
      let wf := preambleOf s rate blf dr ++ renderOf s rate fb
      Transmits (.queryadjust session updn blf dr) s (.frame fb wf) wf)

/-- QUERY with operands out of their domains reports the first in sent order, with the set it allows, under every configuration
(R101, R113, R168). Which of several failing fields is named is log 27 (U8, D13); that the set stands in the response is log 26. -/
def Obligations.QueryReportsTheFirstBadField : Prop :=
  ∀ (dr : ℚ) (m : ℤ) (trext : Bool) (sel session target : String) (q : ℤ) (blf : ℚ) (s : State) (e : Failure),
    firstBad (queryChecks dr m sel session target q) = some e → Raises (.query dr m trext sel session target q blf) s e

/-- SELECT reports the first failing check of R113, the mask's own kind after Length and before DR (R105, R168). Which of several
failing checks is named, the mask's place and DR last are log 27 (U8, D13); that the set stands in the response is log 26. -/
def Obligations.SelectReportsTheFirstBadField : Prop :=
  ∀ (target : String) (action : ℤ) (membank : String) (pointer length : ℤ) (mask : BitSeq) (truncate : Bool) (blf dr : ℚ)
    (s : State) (e : Failure),
    firstBad (selectChecks s.params.wPtr target action membank pointer length mask dr) = some e →
    Raises (.select target action membank pointer length mask truncate blf dr) s e

/-- QUERYADJUST reports the first failing check; under `table_7` no session fails (R106; the layout parameter is log 3, an absent
session log 21). Which of several failing fields is named is log 27 (U8, D13); that the set stands in the response is log 26. -/
def Obligations.QueryadjustReportsTheFirstBadField : Prop :=
  ∀ (session : Option String) (updn : String) (blf dr : ℚ) (s : State) (e : Failure),
    firstBad (queryAdjustChecks s.params.qadjLayout session updn dr) = some e →
    Raises (.queryadjust session updn blf dr) s e

/-- A waveform operation with legal operands is refused while `cfg.rate` is unset, under values that are not positive, under
`n_pw = 0`, and, where it has a preamble, for `blf <= 0` and for `n_trcal < n_pw` (R26, R82, R89, R109, R173). -/
def Obligations.WaveformsAreRefusedOffTheirConditions : Prop :=
  ∀ (i : Instr) (s : State) (pre : Option (ℚ × ℚ)), LegalWaveform s.params i pre →
    (s.cfg.rate = none → exec i s = .refused .rateUnset) ∧
    (∀ rate, s.cfg.rate = some rate → rate ≤ 0 ∨ s.cfg.pwD ≤ 0 → exec i s = .refused .configNotPositive) ∧
    (∀ rate, s.cfg.rate = some rate → 0 < rate → 0 < s.cfg.pwD → ⌊s.cfg.pwD * rate / 1000000⌋ < 1 →
      exec i s = .refused .pulseShorterThanSample) ∧
    (∀ rate blf dr, ConfigAdmitted s rate → pre = some (blf, dr) → blf ≤ 0 → exec i s = .refused .blfNotPositive) ∧
    (∀ rate blf dr, ConfigAdmitted s rate → pre = some (blf, dr) → 0 < blf →
      ⌊dr * rate / blf⌋ < ⌊s.cfg.pwD * rate / 1000000⌋ → exec i s = .refused .trcalShorterThanPulse)

/-- Every frame an operation delivers is a legal frame of R59: it decodes to a frame row whose lengths, check bits and layout are
right, whose pointer fits `W_PTR`, and is that row's bits; so no reserved code of R57 is ever produced. -/
def Obligations.ProducedFramesAreLegal : Prop :=
  ∀ (i : Instr) (s t : State) (fb : BitSeq) (wf : Waveform), exec i s = .next t →
    t.outbox = s.outbox ++ [okResponse (.frame fb wf)] →
    ∃ j, decodeFrame fb = .ok j ∧ wellFormed s.params j = true ∧ encode j = .frame fb

/-! ## FrameExtractor -/

/-- EXTRACT completes on every natural operand: each marker not dropped gives, in order, the window of `n_rn16` samples from
`m + n_t1` and the 200 samples before it; the response carries them with the start indices, and nothing but the frame store
changes (R130, R133 to R136). -/
def Obligations.ExtractCarvesTheMarkedWindows : Prop :=
  ∀ (nMaxGap nT1 nRn16 : ℕ) (s : State),
    let starts := ((markers s.params nMaxGap s.mem.capture).map (· + nT1)).filter
      (fun start => decide (start + nRn16 < s.mem.capture.length) && decide (200 ≤ start))
    let frames := starts.map (fun a => (s.mem.capture.drop a).take nRn16)
    let dcs := starts.map (fun a => (s.mem.capture.drop (a - 200)).take 200)
    (∃ t, exec (.extract nMaxGap nT1 nRn16) s = .next t ∧ EndsWith s t (okResponse (.windows frames dcs starts)) ∧
      t.mem.frames = frames ∧ t.mem.dcWindows = dcs ∧ KeepsAllButFrameStore s t) ∧
    (∀ f ∈ frames, f.length = nRn16) ∧ (∀ d ∈ dcs, d.length = 200)

/-- A marker is a low index whose distance to the next low index is more than `n_max_gap`, or, under `TAIL_MARKER = true`, a last
low index whose distance to the end is; the markers are strictly ascending; in exact arithmetic a sample is low when
`re² + im² < 1/400` (R131, R132, R141). -/
def Obligations.MarkersStartLongGaps : Prop :=
  (∀ (p : Params) (nMaxGap : ℕ) (capture : Samples),
    let low : ℕ → Prop := fun j => ∃ z, capture[j]? = some z ∧ (numericsOf p.numerics).low z = true
    (∀ k, k ∈ markers p nMaxGap capture ↔ low k ∧
      ((∃ j, k < j ∧ low j ∧ (∀ i, k < i → i < j → ¬ low i) ∧ nMaxGap < j - k) ∨
       (p.tailMarker = true ∧ (∀ i, k < i → ¬ low i) ∧ nMaxGap < capture.length - k))) ∧
    (markers p nMaxGap capture).Pairwise (· < ·)) ∧
  (∀ z : IQ, (numericsOf .exact).low z = true ↔ z.re ^ 2 + z.im ^ 2 < 1 / 400)

/-- EXTRACT with a negative operand is refused (R137, R173). -/
def Obligations.ExtractRefusesNegativeOperands : Prop :=
  ∀ (nMaxGap nT1 nRn16 : ℤ) (s : State), nMaxGap < 0 ∨ nT1 < 0 ∨ nRn16 < 0 →
    exec (.extract nMaxGap nT1 nRn16) s = .refused .negativeExtractOperand

/-! ## FrameSynchronizer -/

/-- The reference has 300 values; its ones are exactly at 0..49, 75..99, 150..174 and 250..299, 150 of them; it repeats each of
the twelve elements (1,1,0,1,0,0,1,0,0,0,1,1) 25 times (R146). Under exact arithmetic, correlation value `i` of a 400-sample window
is the sum of the window samples `i - 150 + n` with `n` at a one that lie in the window (R148); there are 400 values. -/
def Obligations.CorrelationSumsUnderTheReference : Prop :=
  (ref.length = 300 ∧ onesOfReference.card = 150 ∧ ∀ n < 300, ref[n]? = some (decide (n ∈ onesOfReference)) ∧
    ref[n]? = [true, true, false, true, false, false, true, false, false, false, true, true][n / 25]?) ∧
  (∀ W : Samples, W.length = 400 → (correlation (numericsOf .exact) W).length = 400) ∧
  ∀ (W : Samples) (i : ℕ), W.length = 400 → i < 400 →
    (correlation (numericsOf .exact) W)[i]? = some
      ⟨∑ n ∈ onesOfReference, if 150 ≤ i + n ∧ i + n < 550 then (W.getD (i + n - 150) IQ.zero).re else 0,
        ∑ n ∈ onesOfReference, if 150 ≤ i + n ∧ i + n < 550 then (W.getD (i + n - 150) IQ.zero).im else 0⟩

/-- The peak is an index below 400, no correlation magnitude is larger than its own, and every earlier one is smaller (R150). That
the least index wins a tie is log 27 (U20, D22). -/
def Obligations.PeakIsTheLeastLargest : Prop :=
  ∀ (num : Numerics) (frame : Samples),
    let values := (correlation num (frame.take 400)).map num.mag
    peakIndex num frame < 400 ∧ ∃ best, values[peakIndex num frame]? = some best ∧
      ∀ j v, values[j]? = some v → v ≤ best ∧ (j < peakIndex num frame → v < best)

/-- SYNC of a given frame or of an entry of the frame store: it completes with `frame_start = max(0, p - 150)`, at most 249, and
the channel estimate there, when the frame has 400 samples and `frame_start + 300`, so always with 549 samples; otherwise it
raises `InsufficientSamples`; an entry that does not exist is refused (R145, R151, R153; log 15). -/
def Obligations.SyncCompletesOrReportsTooFewSamples : Prop :=
  ∀ (arg : FrameArg) (frame : Samples) (s : State),
    let num := numericsOf s.params.numerics
    let start := peakIndex num frame - 150
    (arg = .given frame ∨ ∃ k, arg = .stored k ∧ s.mem.frames[k]? = some frame) →
      start ≤ 249 ∧
      (400 ≤ frame.length → start + 300 ≤ frame.length →
        Delivers (.sync arg) s (.sync start (channelEstimate num frame start))) ∧
      (549 ≤ frame.length → Delivers (.sync arg) s (.sync start (channelEstimate num frame start))) ∧
      (frame.length < 400 ∨ frame.length < start + 300 → Raises (.sync arg) s .tooFewSamples)

/-- SYNC of an entry the frame store does not have is refused (log 15). -/
def Obligations.SyncOfAMissingEntryIsRefused : Prop :=
  ∀ (k : ℕ) (s : State), s.mem.frames.length ≤ k → exec (.sync (.stored k)) s = .refused (.noSuchFrame k)

/-- Under exact arithmetic the channel estimate is 1/150 of the sum of the 150 frame samples `start + n` with `n` at a one of the
reference: 0..49, 75..99, 150..174 and 250..299 (R146, R152); under every arithmetic it is a function of those samples in order. -/
def Obligations.ChannelEstimateIsTheMean : Prop :=
  (onesOfReference.card = 150 ∧ ∀ n, n ∈ onesOfReference ↔ ref[n]? = some true) ∧
  (∀ (frame : Samples) (start : ℕ), start + 300 ≤ frame.length →
    channelEstimate (numericsOf .exact) frame start =
      ⟨(∑ n ∈ onesOfReference, (frame.getD (start + n) IQ.zero).re) / 150,
       (∑ n ∈ onesOfReference, (frame.getD (start + n) IQ.zero).im) / 150⟩) ∧
  (∀ (num : Numerics) (frame : Samples) (start : ℕ), start + 300 ≤ frame.length →
    channelEstimate num frame start =
      num.mean (((List.range 300).filter (fun n => decide (n ∈ onesOfReference))).map
        (fun n => frame.getD (start + n) IQ.zero)))

/-- SYNC of a constant frame of at least 400 samples gives start 0 and the constant, with the peak at 150 unless the constant is 0
(R155 (a), R150). The indices 150 to 250 (all 400 for the zero frame) tie, and the least of them is taken, which is log 27 (U20,
D22). -/
def Obligations.SyncOfAConstantFrame : Prop :=
  ∀ (n : ℕ) (z : IQ) (s : State), 400 ≤ n → s.params.numerics = .exact →
    Delivers (.sync (.given (List.replicate n z))) s (.sync 0 z) ∧
    (z ≠ IQ.zero → peakIndex (numericsOf .exact) (List.replicate n z) = 150)

/-- SYNC finds the reference pattern placed with a non-zero level at an offset `d <= 100` of an otherwise zero frame that holds it
whole: `frame_start = d`, and the estimate is the level (R155 (b)). -/
def Obligations.SyncFindsThePattern : Prop :=
  ∀ (n d : ℕ) (h : IQ) (s : State), d ≤ 100 → 400 ≤ n → h ≠ IQ.zero → s.params.numerics = .exact →
    Delivers (.sync (.given (List.replicate d IQ.zero ++ ref.map (fun b => if b then h else IQ.zero) ++
      List.replicate (n - d - 300) IQ.zero))) s (.sync d h)

/-- Scaling a frame by a non-zero complex constant leaves the start and scales the estimate (R155 (f)); among tied peaks the least
index is taken in both (log 27). -/
def Obligations.SyncScalesWithTheFrame : Prop :=
  ∀ (g : IQ) (frame : Samples) (s : State) (start : ℕ) (h : IQ), g ≠ IQ.zero → s.params.numerics = .exact →
    Delivers (.sync (.given frame)) s (.sync start h) →
    Delivers (.sync (.given (frame.map (IQ.mul g)))) s (.sync start (IQ.mul g h))

/-! ## The host's moves -/

/-- Loading a capture file of `8·n` bytes whose floats are all finite gives `n` samples: bytes `8k..8k+3` in phase, `8k+4..8k+7`
quadrature, least significant byte first, and nothing else changes; a length that is no multiple of 8, or a NaN or infinity, is
refused (R32, R33, U10, U11), and so is a whole, finite file of more than `CAP_MAX` samples (log 16). Loading samples gives exactly
those samples and changes nothing else (R187), and more than `CAP_MAX` of them are refused (log 16). -/
def Obligations.CaptureFileBecomesSamples : Prop :=
  (∀ (s : State) (file : List (BitVec 8)) (rest : List HostInput),
    let float : ℕ → Option ℚ := fun j => binary32 ((file.getD j 0).toNat + 256 * (file.getD (j + 1) 0).toNat +
      65536 * (file.getD (j + 2) 0).toNat + 16777216 * (file.getD (j + 3) 0).toNat)
    s.busy = false → s.inbox = .move (.loadFile file) :: rest →
    (∀ n, file.length = 8 * n → (∀ k < n, (float (8 * k)).isSome ∧ (float (8 * k + 4)).isSome) →
      (∀ c ∈ s.params.capMax, n ≤ c) →
      ∃ t, step s = .next t ∧ t = { s with inbox := rest, mem := { s.mem with capture := t.mem.capture } } ∧
        t.mem.capture.length = n ∧
        ∀ k < n, ∃ z, t.mem.capture[k]? = some z ∧ float (8 * k) = some z.re ∧ float (8 * k + 4) = some z.im) ∧
    (file.length % 8 ≠ 0 → ∃ r, step s = .refused r) ∧
    (∀ n, file.length = 8 * n → (∃ k < n, float (8 * k) = none ∨ float (8 * k + 4) = none) →
      step s = .refused .captureNotFinite) ∧
    (∀ n, file.length = 8 * n → (∀ k < n, (float (8 * k)).isSome ∧ (float (8 * k + 4)).isSome) →
      (∃ c ∈ s.params.capMax, c < n) → step s = .refused .captureTooLong)) ∧
  (∀ (s : State) (samples : Samples) (rest : List HostInput),
    s.busy = false → s.inbox = .move (.loadSamples samples) :: rest →
    ((∀ c ∈ s.params.capMax, samples.length ≤ c) →
      step s = .next { s with inbox := rest, mem := { s.mem with capture := samples } }) ∧
    ((∃ c ∈ s.params.capMax, c < samples.length) → step s = .refused .captureTooLong))

/-- The value of a 32-bit float by its sign, exponent and fraction fields (R33 read by G1: IEEE 754 binary32, log 16): exponent 255
has none. -/
def Obligations.Binary32HasItsValue : Prop :=
  ∀ sign exponent fraction : ℕ, sign ≤ 1 → exponent ≤ 255 → fraction < 2 ^ 23 →
    binary32 (sign * 2 ^ 31 + exponent * 2 ^ 23 + fraction) =
      if exponent = 255 then none
      else some ((-1) ^ sign * (if exponent = 0 then (fraction : ℚ) * (2 : ℚ) ^ (-149 : ℤ)
        else (1 + (fraction : ℚ) / 2 ^ 23) * (2 : ℚ) ^ ((exponent : ℤ) - 127)))

/-- A change of one Frame in place, at its own length (log 17), takes the host's move and changes that entry and nothing else of the
state: no other entry, no DCWindow, no other memory, no register, no flag, no later move and no response (R38, R192). -/
def Obligations.HostChangesOneFrameOnly : Prop :=
  ∀ (s : State) (k : ℕ) (old new : Samples) (rest : List HostInput), s.busy = false →
    s.inbox = .move (.writeFrame k new) :: rest → s.mem.frames[k]? = some old → new.length = old.length →
    step s = .next { s with inbox := rest, mem := { s.mem with frames := s.mem.frames.set k new } } ∧
      (s.mem.frames.set k new).length = s.mem.frames.length ∧ (s.mem.frames.set k new)[k]? = some new ∧
      ∀ j, j ≠ k → (s.mem.frames.set k new)[j]? = s.mem.frames[j]?

/-- An air-interface frame offered as an operation is refused: the block produces frames and executes the fourteen operations and
no other (R59, R60; log 14). -/
def Obligations.AirFramesAreNoOperations : Prop :=
  (∀ f crc s, exec (.queryFrame f crc) s = .refused (.frameIsNoOperation .query)) ∧
  (∀ v s, exec (.queryrepFrame v) s = .refused (.frameIsNoOperation .queryRep)) ∧
  (∀ f crc s, exec (.selectFrame f crc) s = .refused (.frameIsNoOperation .select)) ∧
  (∀ v u s, exec (.queryadjustFrame v u) s = .refused (.frameIsNoOperation .queryAdjust)) ∧
  (∀ u s, exec (.queryadjustTable7 u) s = .refused (.frameIsNoOperation .queryAdjustTable7))
end

