-- ==== Sys2Proof/Laws/State.lean ====
section
/-! SUPPORT. One lemma per field per update of State, true by rfl: no later proof unfolds a record update. -/

namespace Sys2Proof.Machine

section WriteTx
variable (wf : Waveform) (s : State)

@[simp] theorem writeTx_cfg : (writeTx wf s).cfg = s.cfg := rfl
@[simp] theorem writeTx_status : (writeTx wf s).status = s.status := rfl
@[simp] theorem writeTx_busy : (writeTx wf s).busy = s.busy := rfl
@[simp] theorem writeTx_capture : (writeTx wf s).mem.capture = s.mem.capture := rfl
@[simp] theorem writeTx_tx : (writeTx wf s).mem.tx = wf := rfl
@[simp] theorem writeTx_frames : (writeTx wf s).mem.frames = s.mem.frames := rfl
@[simp] theorem writeTx_dcWindows : (writeTx wf s).mem.dcWindows = s.mem.dcWindows := rfl
@[simp] theorem writeTx_work : (writeTx wf s).work = s.work := rfl
@[simp] theorem writeTx_params : (writeTx wf s).params = s.params := rfl
@[simp] theorem writeTx_fresh : (writeTx wf s).fresh = s.fresh := rfl
@[simp] theorem writeTx_inbox : (writeTx wf s).inbox = s.inbox := rfl
@[simp] theorem writeTx_outbox : (writeTx wf s).outbox = s.outbox := rfl

end WriteTx

section WriteFrameStore
variable (fs ds : List Samples) (s : State)

@[simp] theorem writeFrameStore_cfg : (writeFrameStore fs ds s).cfg = s.cfg := rfl
@[simp] theorem writeFrameStore_status : (writeFrameStore fs ds s).status = s.status := rfl
@[simp] theorem writeFrameStore_busy : (writeFrameStore fs ds s).busy = s.busy := rfl
@[simp] theorem writeFrameStore_capture : (writeFrameStore fs ds s).mem.capture = s.mem.capture := rfl
@[simp] theorem writeFrameStore_tx : (writeFrameStore fs ds s).mem.tx = s.mem.tx := rfl
@[simp] theorem writeFrameStore_frames : (writeFrameStore fs ds s).mem.frames = fs := rfl
@[simp] theorem writeFrameStore_dcWindows : (writeFrameStore fs ds s).mem.dcWindows = ds := rfl
@[simp] theorem writeFrameStore_work : (writeFrameStore fs ds s).work = s.work := rfl
@[simp] theorem writeFrameStore_params : (writeFrameStore fs ds s).params = s.params := rfl
@[simp] theorem writeFrameStore_fresh : (writeFrameStore fs ds s).fresh = s.fresh := rfl
@[simp] theorem writeFrameStore_inbox : (writeFrameStore fs ds s).inbox = s.inbox := rfl
@[simp] theorem writeFrameStore_outbox : (writeFrameStore fs ds s).outbox = s.outbox := rfl

end WriteFrameStore

section LoadCapture
variable (c : Samples) (s : State)

@[simp] theorem loadCapture_cfg : (loadCapture c s).cfg = s.cfg := rfl
@[simp] theorem loadCapture_status : (loadCapture c s).status = s.status := rfl
@[simp] theorem loadCapture_busy : (loadCapture c s).busy = s.busy := rfl
@[simp] theorem loadCapture_capture : (loadCapture c s).mem.capture = c := rfl
@[simp] theorem loadCapture_tx : (loadCapture c s).mem.tx = s.mem.tx := rfl
@[simp] theorem loadCapture_frames : (loadCapture c s).mem.frames = s.mem.frames := rfl
@[simp] theorem loadCapture_dcWindows : (loadCapture c s).mem.dcWindows = s.mem.dcWindows := rfl
@[simp] theorem loadCapture_work : (loadCapture c s).work = s.work := rfl
@[simp] theorem loadCapture_params : (loadCapture c s).params = s.params := rfl
@[simp] theorem loadCapture_fresh : (loadCapture c s).fresh = s.fresh := rfl
@[simp] theorem loadCapture_inbox : (loadCapture c s).inbox = s.inbox := rfl
@[simp] theorem loadCapture_outbox : (loadCapture c s).outbox = s.outbox := rfl

end LoadCapture

section SetFrame
variable (k : Nat) (f : Samples) (s : State)

@[simp] theorem setFrame_cfg : (setFrame k f s).cfg = s.cfg := rfl
@[simp] theorem setFrame_status : (setFrame k f s).status = s.status := rfl
@[simp] theorem setFrame_busy : (setFrame k f s).busy = s.busy := rfl
@[simp] theorem setFrame_capture : (setFrame k f s).mem.capture = s.mem.capture := rfl
@[simp] theorem setFrame_tx : (setFrame k f s).mem.tx = s.mem.tx := rfl
@[simp] theorem setFrame_frames : (setFrame k f s).mem.frames = s.mem.frames.set k f := rfl
@[simp] theorem setFrame_dcWindows : (setFrame k f s).mem.dcWindows = s.mem.dcWindows := rfl
@[simp] theorem setFrame_work : (setFrame k f s).work = s.work := rfl
@[simp] theorem setFrame_params : (setFrame k f s).params = s.params := rfl
@[simp] theorem setFrame_fresh : (setFrame k f s).fresh = s.fresh := rfl
@[simp] theorem setFrame_inbox : (setFrame k f s).inbox = s.inbox := rfl
@[simp] theorem setFrame_outbox : (setFrame k f s).outbox = s.outbox := rfl

end SetFrame

section Finish
variable (st : Status) (al : Option AllowedSet) (r : Result) (s : State)

@[simp] theorem finish_cfg : (finish st al r s).cfg = s.cfg := rfl
@[simp] theorem finish_status : (finish st al r s).status = st := rfl
@[simp] theorem finish_busy : (finish st al r s).busy = false := rfl
@[simp] theorem finish_mem : (finish st al r s).mem = s.mem := rfl
@[simp] theorem finish_work : (finish st al r s).work = discardWork s := rfl
@[simp] theorem finish_params : (finish st al r s).params = s.params := rfl
@[simp] theorem finish_fresh : (finish st al r s).fresh = s.fresh + 1 := rfl
@[simp] theorem finish_inbox : (finish st al r s).inbox = s.inbox := rfl
@[simp] theorem finish_outbox : (finish st al r s).outbox = s.outbox ++ [{ status := st, allowed := al, result := r }] := rfl

end Finish

section Accept
variable (s : State)

@[simp] theorem accept_cfg : (accept s).cfg = s.cfg := rfl
@[simp] theorem accept_status : (accept s).status = s.status := rfl
@[simp] theorem accept_busy : (accept s).busy = true := rfl
@[simp] theorem accept_mem : (accept s).mem = s.mem := rfl
@[simp] theorem accept_work : (accept s).work = s.work := rfl
@[simp] theorem accept_params : (accept s).params = s.params := rfl
@[simp] theorem accept_fresh : (accept s).fresh = s.fresh := rfl
@[simp] theorem accept_inbox : (accept s).inbox = s.inbox := rfl
@[simp] theorem accept_outbox : (accept s).outbox = s.outbox := rfl

end Accept

section TakeInput
variable (s : State)

@[simp] theorem takeInput_cfg : (takeInput s).cfg = s.cfg := rfl
@[simp] theorem takeInput_status : (takeInput s).status = s.status := rfl
@[simp] theorem takeInput_busy : (takeInput s).busy = s.busy := rfl
@[simp] theorem takeInput_mem : (takeInput s).mem = s.mem := rfl
@[simp] theorem takeInput_work : (takeInput s).work = s.work := rfl
@[simp] theorem takeInput_params : (takeInput s).params = s.params := rfl
@[simp] theorem takeInput_fresh : (takeInput s).fresh = s.fresh := rfl
@[simp] theorem takeInput_inbox : (takeInput s).inbox = s.inbox.tail := rfl
@[simp] theorem takeInput_outbox : (takeInput s).outbox = s.outbox := rfl

end TakeInput

section Accepted
variable (s : State)

@[simp] theorem accepted_cfg : (accepted s).cfg = s.cfg := rfl
@[simp] theorem accepted_status : (accepted s).status = s.status := rfl
@[simp] theorem accepted_busy : (accepted s).busy = true := rfl
@[simp] theorem accepted_mem : (accepted s).mem = s.mem := rfl
@[simp] theorem accepted_work : (accepted s).work = s.work := rfl
@[simp] theorem accepted_params : (accepted s).params = s.params := rfl
@[simp] theorem accepted_fresh : (accepted s).fresh = s.fresh := rfl
@[simp] theorem accepted_inbox : (accepted s).inbox = s.inbox.tail := rfl
@[simp] theorem accepted_outbox : (accepted s).outbox = s.outbox := rfl

end Accepted

section ResetBlock
variable (s : State)

@[simp] theorem resetBlock_cfg : (resetBlock s).cfg = State.reset.cfg := rfl
@[simp] theorem resetBlock_status : (resetBlock s).status = State.reset.status := rfl
@[simp] theorem resetBlock_busy : (resetBlock s).busy = false := rfl
@[simp] theorem resetBlock_capture : (resetBlock s).mem.capture = s.mem.capture := rfl
@[simp] theorem resetBlock_tx : (resetBlock s).mem.tx = [] := rfl
@[simp] theorem resetBlock_frames : (resetBlock s).mem.frames = [] := rfl
@[simp] theorem resetBlock_dcWindows : (resetBlock s).mem.dcWindows = [] := rfl
@[simp] theorem resetBlock_work : (resetBlock s).work = s.work := rfl
@[simp] theorem resetBlock_params : (resetBlock s).params = s.params := rfl
@[simp] theorem resetBlock_fresh : (resetBlock s).fresh = s.fresh := rfl
@[simp] theorem resetBlock_inbox : (resetBlock s).inbox = s.inbox := rfl
@[simp] theorem resetBlock_outbox : (resetBlock s).outbox = s.outbox := rfl

end ResetBlock

section WriteCfg
variable (rate : Rat) (pwD : Option Rat) (s : State)

@[simp] theorem writeCfg_cfg : (writeCfg rate pwD s).cfg = { rate := some rate, pwD := pwD.getD s.cfg.pwD } := rfl
@[simp] theorem writeCfg_status : (writeCfg rate pwD s).status = s.status := rfl
@[simp] theorem writeCfg_busy : (writeCfg rate pwD s).busy = s.busy := rfl
@[simp] theorem writeCfg_mem : (writeCfg rate pwD s).mem = s.mem := rfl
@[simp] theorem writeCfg_work : (writeCfg rate pwD s).work = s.work := rfl
@[simp] theorem writeCfg_params : (writeCfg rate pwD s).params = s.params := rfl
@[simp] theorem writeCfg_fresh : (writeCfg rate pwD s).fresh = s.fresh := rfl
@[simp] theorem writeCfg_inbox : (writeCfg rate pwD s).inbox = s.inbox := rfl
@[simp] theorem writeCfg_outbox : (writeCfg rate pwD s).outbox = s.outbox := rfl

end WriteCfg

section OfferWord
variable (nbits w : Nat) (s : State)

@[simp] theorem offerWord_cfg : (offerWord s nbits w).cfg = s.cfg := rfl
@[simp] theorem offerWord_status : (offerWord s nbits w).status = s.status := rfl
@[simp] theorem offerWord_busy : (offerWord s nbits w).busy = false := rfl
@[simp] theorem offerWord_mem : (offerWord s nbits w).mem = s.mem := rfl
@[simp] theorem offerWord_work : (offerWord s nbits w).work = s.work := rfl
@[simp] theorem offerWord_params : (offerWord s nbits w).params = s.params := rfl
@[simp] theorem offerWord_fresh : (offerWord s nbits w).fresh = s.fresh := rfl
@[simp] theorem offerWord_inbox : (offerWord s nbits w).inbox = .offer (tableEncoded nbits w) :: s.inbox := rfl
@[simp] theorem offerWord_outbox : (offerWord s nbits w).outbox = s.outbox := rfl

end OfferWord

@[simp] theorem discardWork_fb (s : State) : (discardWork s).fb = [] := rfl

end Sys2Proof.Machine
end

