-- ==== Sys2Proof/Laws/Ops.lean ====
section
/-! SUPPORT. What each shared operation of Machine/Ops.lean does, said once: capture reads, the memories' form, the two ends of
an operation. -/

namespace Sys2Proof.Machine

/-! ## Capture reads (R31) -/

theorem memRead_eq_some_iff {m : Memory} {a n : Nat} {xs : Samples} :
    memRead m a n = some xs ↔ a + n ≤ capLen m ∧ xs = (m.capture.drop a).take n := by
  unfold memRead
  split <;> simp_all [eq_comm]

theorem memRead_isSome {m : Memory} {a n : Nat} (h : a + n ≤ capLen m) :
    memRead m a n = some ((m.capture.drop a).take n) := by
  simp [memRead, h]

theorem memRead_length {m : Memory} {a n : Nat} {xs : Samples} (h : memRead m a n = some xs) : xs.length = n := by
  obtain ⟨hle, rfl⟩ := memRead_eq_some_iff.1 h
  unfold capLen at hle
  simp
  omega

/-- Element `k` of a read is the capture sample `k` places after its address. -/
theorem memRead_getElem? {m : Memory} {a n k : Nat} {xs : Samples} (h : memRead m a n = some xs) (hk : k < n) :
    xs[k]? = captureAt m (a + k) := by
  obtain ⟨-, rfl⟩ := memRead_eq_some_iff.1 h
  simp [captureAt, hk]

@[simp] theorem captureAt_loadCapture (xs : Samples) (s : State) (i : Nat) :
    captureAt (loadCapture xs s).mem i = xs[i]? := rfl

/-! ## Frames changed in place (R192) -/

theorem setFrame_other {s : State} {k j : Nat} {f : Samples} (h : j ≠ k) :
    (setFrame k f s).mem.frames[j]? = s.mem.frames[j]? := by
  simp [List.getElem?_set_ne h.symm]

theorem setFrame_same {s : State} {k : Nat} {f : Samples} (h : k < s.mem.frames.length) :
    (setFrame k f s).mem.frames[k]? = some f := by
  simp [h]

/-! ## The memories' form (R38) -/

theorem wf_iff {m : Memory} :
    m.wf = true ↔ m.frames.length = m.dcWindows.length ∧ (∀ d ∈ m.dcWindows, d.length = nDc) ∧
      ∀ f ∈ m.frames, f.length = (m.frames.headD []).length := by
  simp [Memory.wf, and_assoc]

/-- Frames of one length `n` have the form's common length. -/
theorem wf_of_lengths {m : Memory} {n : Nat} (hl : m.frames.length = m.dcWindows.length)
    (hd : ∀ d ∈ m.dcWindows, d.length = nDc) (hf : ∀ f ∈ m.frames, f.length = n) : m.wf = true := by
  refine wf_iff.2 ⟨hl, hd, fun f h => ?_⟩
  cases hm : m.frames with
  | nil => simp [hm] at h
  | cons g gs =>
    have hg : g.length = n := hf g (by simp [hm])
    simp [hg, hf f h]

theorem reset_mem_wf : State.reset.mem.wf = true := by decide

theorem writeTx_wf {s : State} (wf : Waveform) (h : s.mem.wf = true) : (writeTx wf s).mem.wf = true := h

theorem loadCapture_wf {s : State} (c : Samples) (h : s.mem.wf = true) : (loadCapture c s).mem.wf = true := h

theorem resetBlock_wf (s : State) : (resetBlock s).mem.wf = true := by
  simp [wf_iff]

theorem writeFrameStore_wf {s : State} {fs ds : List Samples} {n : Nat} (hl : fs.length = ds.length)
    (hd : ∀ d ∈ ds, d.length = nDc) (hf : ∀ f ∈ fs, f.length = n) : (writeFrameStore fs ds s).mem.wf = true :=
  wf_of_lengths hl hd hf

theorem setFrame_wf {s : State} {k : Nat} {f g : Samples} (h : s.mem.wf = true) (hg : s.mem.frames[k]? = some g)
    (hl : g.length = f.length) : (setFrame k f s).mem.wf = true := by
  obtain ⟨h1, h2, h3⟩ := wf_iff.1 h
  refine wf_of_lengths (n := f.length) (by simpa using h1) h2 fun x hx => ?_
  have hgm : g ∈ s.mem.frames := List.mem_of_getElem? hg
  rcases List.mem_or_eq_of_mem_set hx with hx | rfl
  · rw [h3 x hx, ← hl, h3 g hgm]
  · rfl

/-! ## The ends of an operation (R160, R170) -/

theorem respond_eq_next_iff {r : Result} {s t : State} : respond r s = .next t ↔ t = finish statusOk none r s := by
  simp [respond, eq_comm]

theorem raise_eq_next_iff {e : Failure} {s t : State} :
    raise e s = .next t ↔ t = finish (failureStatus e) (failureAllowed e) .nothing s := by
  simp [raise, eq_comm]

theorem respondWaveform_eq_next_iff {wf : Waveform} {r : Result} {s t : State} :
    respondWaveform wf r s = .next t ↔ t = finish statusOk none r (writeTx wf s) := by
  simp [respondWaveform, respond_eq_next_iff]

/-- The end of an operation, in the terms of claims. -/
theorem finish_endsWith {st : Status} {al : Option AllowedSet} {r : Result} {s s₀ : State}
    (ho : s₀.outbox = s.outbox) (hi : s₀.inbox = s.inbox) (hp : s₀.params = s.params) :
    EndsWith s (finish st al r s₀) { status := st, allowed := al, result := r } :=
  ⟨rfl, rfl, by simp [ho], rfl, hi, hp⟩

theorem failureStatus_kind (e : Failure) : (failureStatus e).kind ≠ .ok := by
  cases e <;> simp [failureStatus]

end Sys2Proof.Machine
end

