-- ==== Sys2Proof/Laws/Exec.lean ====
section
/-! SUPPORT. Everything an operation can do when it answers a next state, said once (`exec_next_cases`); proofs about all
operations split on it and unfold no meaning. -/

namespace Sys2Proof.Machine

/-! ## Validation raises only what R161 and R162 list -/

theorem need_eq_ok_iff {α : Type} {f : Field} {al : AllowedSet} {o : Option α} {v : α} :
    need f al o = .ok v ↔ o = some v := by
  cases o <;> simp [need]

theorem need_eq_error_iff {α : Type} {f : Field} {al : AllowedSet} {o : Option α} {e : Failure} :
    need f al o = .error e ↔ o = none ∧ e = .invalid f al := by
  cases o <;> simp [need, eq_comm]

/-- An error that some operation may raise: a reported field (R113), the mask's own kind, or too few samples. -/
def Raisable : Failure → Prop
  | .invalid f _ => f ≠ .none ∧ f ≠ .trext ∧ f ≠ .mask ∧ f ≠ .truncate
  | .maskLength => True
  | .tooFewSamples => True

theorem need_raisable {α : Type} {f : Field} {al : AllowedSet} {o : Option α} {e : Failure}
    (hf : f ≠ .none ∧ f ≠ .trext ∧ f ≠ .mask ∧ f ≠ .truncate) (h : need f al o = .error e) : Raisable e := by
  obtain ⟨-, rfl⟩ := need_eq_error_iff.1 h
  exact hf

/-- A check followed by more: its own error, or the error of what follows. -/
theorem bind_error {α β : Type} {x : Except Failure α} {k : α → Except Failure β} {e : Failure}
    (h : (x >>= k) = .error e) : x = .error e ∨ ∃ a, x = .ok a ∧ k a = .error e := by
  cases x with
  | error e' => exact .inl (congrArg _ (Except.error.inj (show (Except.error e' : Except Failure β) = .error e from h)))
  | ok a => right; exact ⟨a, rfl, h⟩

theorem validateQuery_raisable {dr : Rat} {m : Int} {trext : Bool} {sel session target : String} {q : Int} {e : Failure}
    (h : validateQuery dr m trext sel session target q = .error e) : Raisable e := by
  unfold validateQuery at h
  obtain h | ⟨_, -, h⟩ := bind_error h
  · exact need_raisable (by decide) h
  obtain h | ⟨_, -, h⟩ := bind_error h
  · exact need_raisable (by decide) h
  obtain h | ⟨_, -, h⟩ := bind_error h
  · exact need_raisable (by decide) h
  obtain h | ⟨_, -, h⟩ := bind_error h
  · exact need_raisable (by decide) h
  obtain h | ⟨_, -, h⟩ := bind_error h
  · exact need_raisable (by decide) h
  obtain h | ⟨_, -, h⟩ := bind_error h
  · exact need_raisable (by decide) h
  cases h

theorem validateSelect_raisable {w : Option Nat} {target : String} {action : Int} {membank : String}
    {pointer length : Int} {mask : BitSeq} {truncate : Bool} {dr : Rat} {e : Failure}
    (h : validateSelect w target action membank pointer length mask truncate dr = .error e) : Raisable e := by
  unfold validateSelect at h
  obtain h | ⟨_, -, h⟩ := bind_error h
  · exact need_raisable (by decide) h
  obtain h | ⟨_, -, h⟩ := bind_error h
  · exact need_raisable (by decide) h
  obtain h | ⟨_, -, h⟩ := bind_error h
  · exact need_raisable (by decide) h
  obtain h | ⟨_, -, h⟩ := bind_error h
  · exact need_raisable (by decide) h
  obtain h | ⟨_, -, h⟩ := bind_error h
  · exact need_raisable (by decide) h
  obtain h | ⟨_, -, h⟩ := bind_error h
  · unfold needMask at h
    split at h
    · cases h
    · cases h; trivial
  obtain h | ⟨_, -, h⟩ := bind_error h
  · exact need_raisable (by decide) h
  cases h

theorem validateQueryAdjust_raisable {layout : QadjLayout} {session : Option String} {updn : String} {dr : Rat}
    {e : Failure} (h : validateQueryAdjust layout session updn dr = .error e) : Raisable e := by
  unfold validateQueryAdjust at h
  obtain h | ⟨_, -, h⟩ := bind_error h
  · cases layout with
    | table_7 => cases h
    | gen2_9 =>
      simp only [validateAdjustSession] at h
      cases hs : need .session sessionSet (session.bind sessionOf) with
      | ok v => simp [hs, Except.map] at h
      | error e' =>
        simp [hs, Except.map] at h
        exact h ▸ need_raisable (by decide) hs
  obtain h | ⟨_, -, h⟩ := bind_error h
  · exact need_raisable (by decide) h
  obtain h | ⟨_, -, h⟩ := bind_error h
  · exact need_raisable (by decide) h
  cases h

theorem synchronize_raises {num : Numerics} {frame : Samples} {e : Failure}
    (h : synchronize num frame = .error e) : e = .tooFewSamples := by
  unfold synchronize at h
  split at h
  · exact (Except.error.inj h).symm
  · split at h
    · exact (Except.error.inj h).symm
    · exact absurd h (by simp)

/-! ## The loop of EXTRACT -/

/-- A carved window: where it starts, and that its two reads are the capture's. -/
theorem carveAt_eq_ok {m : Memory} {n start : Nat} {w : Window} (h : carveAt m n start = .ok w) :
    w.start = start ∧ memRead m start n = some w.frame ∧ memRead m (start - nDc) nDc = some w.dcWindow := by
  unfold carveAt at h
  split at h
  · cases h
  · rename_i frame hf
    split at h
    · cases h
    · rename_i dc hd
      obtain rfl := Except.ok.inj h
      exact ⟨rfl, hf, hd⟩

/-- Every window of a carved list has a Frame of the asked length and a DCWindow of 200 samples (R38). -/
theorem carve_lengths {m : Memory} {nT1 n : Nat} {ks : List Nat} {ws : List Window} (h : carve m nT1 n ks = .ok ws) :
    ∀ w ∈ ws, w.frame.length = n ∧ w.dcWindow.length = nDc := by
  induction ks generalizing ws with
  | nil => cases h; simp
  | cons k ks ih =>
    unfold carve at h
    split at h
    · exact ih h
    · split at h
      · cases h
      · rename_i w hw
        cases hc : carve m nT1 n ks with
        | error f => simp [hc, Except.map] at h
        | ok ws' =>
          simp [hc, Except.map] at h
          subst h
          obtain ⟨-, h1, h2⟩ := carveAt_eq_ok hw
          intro x hx
          rcases List.mem_cons.1 hx with rfl | hx
          · exact ⟨memRead_length h1, memRead_length h2⟩
          · exact ih hc x hx

/-! ## What a meaning can answer -/

/-- The ways an operation ends with a next state: a result with no register or memory written, an error, a waveform written, or
the three operations that write `cfg` or the frame store. -/
inductive NextCase (i : Instr) (s t : State) : Prop where
  /-- A result, and nothing written but what every operation writes (CRC5, CRC16, EBV, SYNC). -/
  | result (r : Result) (hr : (∃ S, r = .bits S) ∨ (∃ k h, r = .sync k h)) (h : t = finish statusOk none r s)
  /-- An error (R170). -/
  | error (e : Failure) (he : Raisable e) (h : t = finish (failureStatus e) (failureAllowed e) .nothing s)
  /-- A waveform in the TX buffer and in the response (R36). -/
  | waveform (wf : Waveform) (r : Result) (hr : r = .waveform wf ∨ ∃ fb, r = .frame fb wf)
      (h : t = finish statusOk none r (writeTx wf s))
  /-- RESET (R185). -/
  | reset (hi : i = .reset) (h : t = finish statusOk none .nothing (resetBlock s))
  /-- CFG_WRITE of positive values (R94). -/
  | cfg (rate : Rat) (pwD : Option Rat) (hi : i = .cfgWrite rate pwD) (hr : 0 < rate) (hp : ∀ v ∈ pwD, 0 < v)
      (h : t = finish statusOk none .nothing (writeCfg rate pwD s))
  /-- EXTRACT: the frame store is what the loop carved (R130). -/
  | extract (nMaxGap nT1 nRn16 : Int) (ws : List Window) (hi : i = .extract nMaxGap nT1 nRn16)
      (hc : carve s.mem nT1.toNat nRn16.toNat (markers s.params nMaxGap.toNat s.mem.capture) = .ok ws)
      (h : t = finish statusOk none (.windows (ws.map (·.frame)) (ws.map (·.dcWindow)) (ws.map (·.start)))
        (writeFrameStore (ws.map (·.frame)) (ws.map (·.dcWindow)) s))

theorem transmit_next {i : Instr} {pre : Except Refusal (Timing × Waveform)} {fb : BitSeq} {s t : State}
    (h : transmit pre fb s = .next t) : NextCase i s t := by
  unfold transmit at h
  split at h
  · cases h
  · exact .waveform _ _ (.inr ⟨_, rfl⟩) (respondWaveform_eq_next_iff.1 h)

/-- Everything `exec` can do when it answers a next state. -/
theorem exec_next_cases {i : Instr} {s t : State} (h : exec i s = .next t) : NextCase i s t := by
  cases i with
  | reset => exact .reset rfl (respond_eq_next_iff.1 h)
  | cfgWrite rate pwD =>
    simp only [exec, execCfgWrite] at h
    split at h
    · cases h
    · rename_i hn
      simp only [Bool.or_eq_true, decide_eq_true_eq, not_or, not_le, Bool.not_eq_true] at hn
      refine .cfg rate pwD rfl hn.1 (fun v hv => ?_) (respond_eq_next_iff.1 h)
      cases hv
      simpa [givenNotPositive] using hn.2
  | crc5 bits => exact .result _ (.inl ⟨_, rfl⟩) (respond_eq_next_iff.1 h)
  | crc16 bits => exact .result _ (.inl ⟨_, rfl⟩) (respond_eq_next_iff.1 h)
  | ebv value =>
    simp only [exec, execEbv] at h
    split at h
    · rename_i e he
      exact .error e (need_raisable (by decide) he) (raise_eq_next_iff.1 h)
    · exact .result _ (.inl ⟨_, rfl⟩) (respond_eq_next_iff.1 h)
  | pieEncode bits =>
    simp only [exec, execPieEncode] at h
    split at h
    · cases h
    · exact .waveform _ _ (.inl rfl) (respondWaveform_eq_next_iff.1 h)
  | piePreamble blf dr =>
    simp only [exec, execPiePreamble] at h
    split at h
    · rename_i e he
      exact .error e (need_raisable (by decide) he) (raise_eq_next_iff.1 h)
    · split at h
      · cases h
      · exact .waveform _ _ (.inl rfl) (respondWaveform_eq_next_iff.1 h)
  | pieFramesync =>
    simp only [exec, execPieFramesync] at h
    split at h
    · cases h
    · exact .waveform _ _ (.inl rfl) (respondWaveform_eq_next_iff.1 h)
  | query dr m trext sel session target q blf =>
    simp only [exec, execQuery] at h
    split at h
    · exact .error _ (validateQuery_raisable ‹_›) (raise_eq_next_iff.1 h)
    · exact transmit_next h
  | queryrep session =>
    simp only [exec, execQueryrep] at h
    split at h
    · rename_i e he
      exact .error e (need_raisable (by decide) he) (raise_eq_next_iff.1 h)
    · exact transmit_next h
  | select target action membank pointer length mask truncate blf dr =>
    simp only [exec, execSelect] at h
    split at h
    · exact .error _ (validateSelect_raisable ‹_›) (raise_eq_next_iff.1 h)
    · exact transmit_next h
  | queryadjust session updn blf dr =>
    simp only [exec, execQueryadjust] at h
    split at h
    · exact .error _ (validateQueryAdjust_raisable ‹_›) (raise_eq_next_iff.1 h)
    · exact transmit_next h
  | extract nMaxGap nT1 nRn16 =>
    simp only [exec, execExtract] at h
    split at h
    · cases h
    · split at h
      · cases h
      · exact .extract nMaxGap nT1 nRn16 _ rfl ‹_› (respond_eq_next_iff.1 h)
  | sync frame =>
    simp only [exec, execSync] at h
    split at h
    · cases h
    · split at h
      · rename_i e he
        exact .error e (synchronize_raises he ▸ trivial) (raise_eq_next_iff.1 h)
      · exact .result _ (.inr ⟨_, _, rfl⟩) (respond_eq_next_iff.1 h)
  | queryFrame f crc => cases h
  | queryrepFrame session => cases h
  | selectFrame f crc => cases h
  | queryadjustFrame session updn => cases h
  | queryadjustTable7 updn => cases h

end Sys2Proof.Machine
end

