-- ==== Sys2Proof/Laws/PerInstr.lean ====
section
/-! SUPPORT. The family RequestShape: the request an operation encodes to has one of the fourteen selectors of
spec/30_encoding.md R60 and only operand names of that selector, none twice. One lemma per constructor. -/

namespace Sys2Proof.Laws.RequestShape

/-- What `encode` promises of a request. A frame row's encoded form is no request. -/
def Statement (i : Instr) : Prop :=
  ∀ r, encode i = .request r → r.op.toNat < 14 ∧ checkNames (operandNames r.op.toNat) r.args = .ok ()

/-- The shape of an instruction's request, from the selector and the operands its encoding is made of. -/
theorem of_encode {i : Instr} {op : Nat} {args : List (OperandName × Value)} (he : encode i = requestOf op args)
    (ho : (BitVec.ofNat 4 op).toNat < 14)
    (hn : checkNames (operandNames (BitVec.ofNat 4 op).toNat) args = .ok ()) : Statement i := by
  intro r h
  obtain rfl : { op := BitVec.ofNat 4 op, args := args } = r := by
    rw [he] at h; exact Encoded.request.inj h
  exact ⟨ho, hn⟩

theorem reset : Statement .reset :=
  of_encode rfl (by decide) rfl

theorem cfgWrite (rate : Rat) (pwD : Option Rat) : Statement (.cfgWrite rate pwD) := by
  cases pwD <;> exact of_encode rfl (by decide) rfl

theorem crc5 (bits : BitSeq) : Statement (.crc5 bits) :=
  of_encode rfl (by decide) rfl

theorem crc16 (bits : BitSeq) : Statement (.crc16 bits) :=
  of_encode rfl (by decide) rfl

theorem ebv (value : Int) : Statement (.ebv value) :=
  of_encode rfl (by decide) rfl

theorem pieEncode (bits : BitSeq) : Statement (.pieEncode bits) :=
  of_encode rfl (by decide) rfl

theorem piePreamble (blf dr : Rat) : Statement (.piePreamble blf dr) :=
  of_encode rfl (by decide) rfl

theorem pieFramesync : Statement .pieFramesync :=
  of_encode rfl (by decide) rfl

theorem query (dr : Rat) (m : Int) (trext : Bool) (sel session target : String) (q : Int) (blf : Rat) :
    Statement (.query dr m trext sel session target q blf) :=
  of_encode rfl (by decide) rfl

theorem queryrep (session : String) : Statement (.queryrep session) :=
  of_encode rfl (by decide) rfl

theorem select (target : String) (action : Int) (membank : String) (pointer length : Int) (mask : BitSeq)
    (truncate : Bool) (blf dr : Rat) :
    Statement (.select target action membank pointer length mask truncate blf dr) :=
  of_encode rfl (by decide) rfl

theorem queryadjust (session : Option String) (updn : String) (blf dr : Rat) :
    Statement (.queryadjust session updn blf dr) := by
  cases session <;> exact of_encode rfl (by decide) rfl

theorem extract (nMaxGap nT1 nRn16 : Int) : Statement (.extract nMaxGap nT1 nRn16) :=
  of_encode rfl (by decide) rfl

theorem sync (frame : FrameArg) : Statement (.sync frame) :=
  of_encode rfl (by decide) rfl

theorem queryFrame (f : QueryFields) (crc : BitVec 5) : Statement (.queryFrame f crc) := by
  intro r h; cases h

theorem queryrepFrame (session : Session) : Statement (.queryrepFrame session) := by
  intro r h; cases h

theorem selectFrame (f : SelectFields) (crc : BitVec 16) : Statement (.selectFrame f crc) := by
  intro r h; cases h

theorem queryadjustFrame (session : Session) (updn : UpDn) : Statement (.queryadjustFrame session updn) := by
  intro r h; cases h

theorem queryadjustTable7 (updn : UpDn) : Statement (.queryadjustTable7 updn) := by
  intro r h; cases h

end Sys2Proof.Laws.RequestShape
end

