-- ==== Sys2Proof/Laws/Values.lean ====
section
/-! SUPPORT. The small lemmas of the value functions: lengths of bit fields, pulses and correlations, the all-zero frame. -/

namespace Sys2Proof.Machine

/-! ## Bits -/

@[simp] theorem ubits_length (n v : Nat) : (ubits n v).length = n := by
  induction n with
  | zero => rfl
  | succ n ih => simp [ubits, ih]

@[simp] theorem crc5_length (F : BitSeq) : (crc5 F).length = 5 := rfl

@[simp] theorem crc16Bits_length (choice : Crc16Choice) (F : BitSeq) : (crc16Bits choice F).length = 16 := by
  simp [crc16Bits]

theorem crc5Run_append (F G : BitSeq) : crc5Run (F ++ G) = G.foldl crc5Step (crc5Run F) := by
  simp [crc5Run]

theorem crc16Run_append (F G : BitSeq) : crc16Run (F ++ G) = G.foldl crc16Step (crc16Run F) := by
  simp [crc16Run]

/-! ## Pulses -/

theorem pulse_length {t : Timing} {n : Nat} (h : t.nPw ≤ n) : (pulse t n).length = n := by
  simp [pulse, h]

theorem encodeBits_cons (t : Timing) (b : Bit) (bits : BitSeq) :
    encodeBits t (b :: bits) = symbol t b ++ encodeBits t bits := rfl

theorem encodeBits_append (t : Timing) (F G : BitSeq) : encodeBits t (F ++ G) = encodeBits t F ++ encodeBits t G := by
  simp [encodeBits]

theorem preamble_eq_frameSync (t : Timing) (n : Nat) : preamble t n = frameSync t ++ pulse t n := rfl

/-! ## Correlation -/

@[simp] theorem ref_length : ref.length = 300 := by decide +kernel

@[simp] theorem correlation_length (num : Numerics) (W : Samples) : (correlation num W).length = 400 := by
  simp [correlation, nWin]

/-- Correlation value `i` is the arithmetic's own. -/
theorem correlation_getElem? {num : Numerics} {W : Samples} {i : Nat} (h : i < 400) :
    (correlation num W)[i]? = some (num.corr W i) := by
  simp [correlation, nWin, h]

@[simp] theorem underOnes_nil (xs : Samples) : underOnes [] xs = [] := by
  simp [underOnes]

theorem underOnes_cons (r : Bit) (rs : BitSeq) (x : IQ) (xs : Samples) :
    underOnes (r :: rs) (x :: xs) = (if r then [x] else []) ++ underOnes rs xs := by
  cases r <;> rfl

/-- A reference that lies whole on the samples takes one sample for each of its ones. -/
theorem underOnes_length {rs : BitSeq} {xs : Samples} (h : rs.length ≤ xs.length) :
    (underOnes rs xs).length = rs.count true := by
  induction rs generalizing xs with
  | nil => simp
  | cons r rs ih =>
    cases xs with
    | nil => simp at h
    | cons x xs => cases r <;> simp [underOnes, ih (Nat.le_of_succ_le_succ h)]

/-- Every sample taken is one of the samples given. -/
theorem mem_of_mem_underOnes {rs : BitSeq} {xs : Samples} {z : IQ} (h : z ∈ underOnes rs xs) : z ∈ xs := by
  induction rs generalizing xs with
  | nil => simp at h
  | cons r rs ih =>
    cases xs with
    | nil => simp [underOnes] at h
    | cons x xs =>
      rw [underOnes_cons] at h
      rcases List.mem_append.1 h with h | h
      · cases r <;> simp at h; exact h ▸ List.mem_cons_self
      · exact List.mem_cons_of_mem _ (ih h)

@[simp] theorem IQ_sum_nil : IQ.sum [] = IQ.zero := rfl

/-- The sum of zeros. -/
theorem IQ_sum_zeros {zs : Samples} (h : ∀ z ∈ zs, z = IQ.zero) : IQ.sum zs = IQ.zero := by
  rw [List.eq_replicate_of_mem h]
  induction zs.length with
  | zero => rfl
  | succ n ih => simpa [IQ.sum, List.replicate_succ, IQ.add, IQ.zero] using ih

/-- A reference laid over zeros sums to zero. -/
theorem sum_underOnes_zeros (rs : BitSeq) (n : Nat) : IQ.sum (underOnes rs (List.replicate n IQ.zero)) = IQ.zero :=
  IQ_sum_zeros fun _ h => List.eq_of_mem_replicate (mem_of_mem_underOnes h)

theorem correlation_zeros (n : Nat) :
    correlation numericsExact (List.replicate n IQ.zero) = List.replicate 400 IQ.zero := by
  have h : numericsExact.corr (List.replicate n IQ.zero) = fun _ => IQ.zero := by
    funext i
    simp only [numericsExact, padWindow, List.replicate_append_replicate, List.drop_replicate, sum_underOnes_zeros]
  rw [correlation, h, List.map_const', List.length_range, nWin]

theorem argmaxFrom_replicate (b : Nat) (v : Rat) (i n : Nat) : argmaxFrom b v i (List.replicate n v) = b := by
  induction n generalizing i with
  | zero => rfl
  | succ n ih => simp [List.replicate_succ, argmaxFrom, ih]

theorem argmax_replicate (v : Rat) (n : Nat) : argmax (List.replicate n v) = 0 := by
  cases n with
  | zero => rfl
  | succ n => simp [List.replicate_succ, argmax, argmaxFrom_replicate]

theorem peakIndex_zeros (n : Nat) : peakIndex numericsExact (List.replicate n IQ.zero) = 0 := by
  simp only [peakIndex, List.take_replicate, correlation_zeros, List.map_replicate, argmax_replicate]

/-- The frame that is all zeros (V45): peak 0, start 0, estimate 0. -/
theorem synchronize_zeros {n : Nat} (h : 400 ≤ n) :
    synchronize numericsExact (List.replicate n IQ.zero) = .ok (0, IQ.zero) := by
  have hp := peakIndex_zeros n
  have hm : channelEstimate numericsExact (List.replicate n IQ.zero) 0 = IQ.zero := by
    simp only [channelEstimate, numericsExact, List.drop_zero, sum_underOnes_zeros]
    decide +kernel
  have h1 : ¬ (n < nWin) := by unfold nWin; omega
  have h2 : ¬ (n < nRef) := by unfold nRef; omega
  simp [synchronize, frameStart, hp, hm, h1, h2]

end Sys2Proof.Machine
end

