-- ==== Sys2Proof/Tests/Slice0.lean ====
section
/-! SUPPORT. The model's own tests: ill-formed terms, decoding, at most two cases per instruction from the vectors of
spec/95_test_vectors.md (named in each docstring), and one witness for the hypotheses of each statement. -/

namespace Sys2Proof.Tests

open Sys2Proof Sys2Proof.Machine

set_option Elab.async false

/-! ## Helpers -/

/-- A bit string as the spec writes it; spaces only separate fields. -/
def b (s : String) : BitSeq :=
  s.toList.filterMap (fun ch => if ch = '1' then some true else if ch = '0' then some false else none)

/-- A waveform in the spec's run-length form. -/
def runs (rs : List (Level × Nat)) : Waveform := rs.flatMap (fun r => List.replicate r.2 r.1)

/-- A block configured with a rate and a pulse width. -/
def at_ (rate pwD : Rat) : State := { State.reset with cfg := { rate := some rate, pwD := pwD } }

/-- A block with a capture loaded: `1+0j` everywhere but for zeros in the given index ranges. -/
def withCapture (n : Nat) (zeros : List (Nat × Nat)) : State :=
  loadCapture ((List.range n).map (fun i => if zeros.any (fun z => decide (z.1 ≤ i ∧ i ≤ z.2)) then IQ.zero else ⟨1, 0⟩))
    State.reset

def txOf : Answer → Option Waveform
  | .next t => some t.mem.tx
  | _ => none

def statusOf : Answer → Option (Nat × Nat)
  | .next t => some (statusCode t.status)
  | _ => none

def resultOf : Answer → Option Result
  | .next t => t.outbox.getLast?.map (·.result)
  | _ => none

def bitsOf : Answer → Option BitSeq
  | .next t => t.outbox.getLast?.bind (fun r => match r.result with | .bits S => some S | .frame S _ => some S | _ => none)
  | _ => none

def startsOf : Answer → Option (List Nat)
  | .next t => t.outbox.getLast?.bind (fun r => match r.result with | .windows _ _ starts => some starts | _ => none)
  | _ => none

def refusalOf : Answer → Option Refusal
  | .refused r => some r
  | _ => none

/-! ## Ill-formed terms (R46, R48, R49, R55, R60) -/

/-- A Query frame whose check bits are not V10's 10000. -/
theorem test_wf_refuses_query_crc : wellFormed .default (.queryFrame ⟨.dr8, .m1, false, .all, .s0, .a, 0⟩ 0b10001) = false := by
  decide +kernel

theorem test_wf_accepts_query_crc : wellFormed .default (.queryFrame ⟨.dr8, .m1, false, .all, .s0, .a, 0⟩ 0b10000) = true := by
  decide +kernel

/-- R59, R113 row 11: V19's frame at pointer 16 is legal without a bound and with 5 bits, and no legal frame with 4 bits. -/
theorem test_wf_refuses_pointer_beyond_bound :
    let f : SelectFields := ⟨.invS0, 0, .epc, 16, [], false⟩
    let i : Instr := .selectFrame f (crc16Of .gen2 (selectPayload f))
    wellFormed .default i = true ∧ wellFormed { Params.default with wPtr := some 5 } i = true ∧
      wellFormed { Params.default with wPtr := some 4 } i = false := by
  decide +kernel

/-- A Select frame whose check bits are not V19's 0x5051. -/
theorem test_wf_refuses_select_crc : wellFormed .default (.selectFrame ⟨.invS0, 0, .epc, 0, [], false⟩ 0x5050) = false := by
  decide +kernel

theorem test_wf_accepts_select_crc : wellFormed .default (.selectFrame ⟨.invS0, 0, .epc, 0, [], false⟩ 0x5051) = true := by
  decide +kernel

/-- A mask of 256 bits has no Length. -/
theorem test_wf_refuses_long_mask (crc : BitVec 16) :
    wellFormed .default (.selectFrame ⟨.invS0, 0, .epc, 0, List.replicate 256 false, false⟩ crc) = false := by
  have h : maskFits (List.replicate 256 false) = false := by decide +kernel
  simp only [wellFormed, h, Bool.false_and]

theorem test_wf_refuses_missing_session : wellFormed .default (.queryadjust none "up" 40000 8) = false := by decide

theorem test_wf_refuses_other_layout :
    wellFormed .default (.queryadjustTable7 .up) = false ∧
    wellFormed { Params.default with qadjLayout := .table_7 } (.queryadjustFrame .s0 .up) = false := by decide

/-! ## Decoding: words written out from the tables of R60 and R46 to R49 -/

/-- The statement WordsOfTheSpecDecode holds at the default parameters on these rows. -/
theorem test_decode_system :
    decode .default (.request ⟨0b0000, []⟩) = .ok .reset ∧
    decode .default (.request ⟨0b0001, [(.rate, .int 2000000), (.pwD, .rat (25 / 2))]⟩) = .ok (.cfgWrite 2000000 (some (25 / 2))) := by
  decide +kernel

theorem test_decode_generators :
    decode .default (.request ⟨0b0010, [(.bits, .bits [true])]⟩) = .ok (.crc5 [true]) ∧
    decode .default (.request ⟨0b0011, [(.bits, .bits [true])]⟩) = .ok (.crc16 [true]) ∧
    decode .default (.request ⟨0b0100, [(.value, .int 300)]⟩) = .ok (.ebv 300) := by
  decide +kernel

theorem test_decode_pie :
    decode .default (.request ⟨0b0101, [(.bits, .bits [true])]⟩) = .ok (.pieEncode [true]) ∧
    decode .default (.request ⟨0b0110, [(.blf, .int 40000), (.dr, .rat (64 / 3))]⟩) = .ok (.piePreamble 40000 (64 / 3)) ∧
    decode .default (.request ⟨0b0111, []⟩) = .ok .pieFramesync := by
  decide +kernel

theorem test_decode_commands :
    decode .default (.request ⟨0b1000, [(.blf, .int 40000), (.q, .int 7), (.target, .token "B"), (.session, .token "s2"),
      (.sel, .token "sl"), (.trext, .bool false), (.m, .int 1), (.dr, .int 8)]⟩) =
      .ok (.query 8 1 false "sl" "s2" "B" 7 40000) ∧
    decode .default (.request ⟨0b1001, [(.session, .token "s2")]⟩) = .ok (.queryrep "s2") ∧
    decode .default (.request ⟨0b1010, [(.target, .token "sl"), (.action, .int 0), (.membank, .token "EPC"), (.pointer, .int 32),
      (.length, .int 1), (.mask, .bits [true]), (.truncate, .bool false), (.blf, .int 40000), (.dr, .int 8)]⟩) =
      .ok (.select "sl" 0 "EPC" 32 1 [true] false 40000 8) ∧
    decode .default (.request ⟨0b1011, [(.session, .token "s2"), (.updn, .token "down"), (.blf, .int 40000), (.dr, .int 8)]⟩) =
      .ok (.queryadjust (some "s2") "down" 40000 8) := by
  decide +kernel

theorem test_decode_receive :
    decode .default (.request ⟨0b1100, [(.nMaxGap, .int 100), (.nT1, .int 50), (.nRn16, .int 400)]⟩) = .ok (.extract 100 50 400) ∧
    decode .default (.request ⟨0b1101, [(.frame, .frame (.stored 0))]⟩) = .ok (.sync (.stored 0)) := by
  decide +kernel

/-- V11, V16, V18, V24, V25 as frames. -/
theorem test_decode_frames :
    decode .default (.frame (b "1000 1 10 1 00 01 0 0100 11001")) = .ok (.queryFrame ⟨.dr64_3, .m4, true, .all, .s1, .a, 4⟩ 0b11001) ∧
    decode .default (.frame (b "0011")) = .ok (.queryrepFrame .s3) ∧
    decode .default (.frame (b "1010 100 000 01 00100000 00001000 10100101 0 0111101111001010")) =
      .ok (.selectFrame ⟨.sl, 0, .epc, 32, b "10100101", false⟩ 0x7BCA) ∧
    decode .default (.frame (b "1001 10 011")) = .ok (.queryadjustFrame .s2 .down) ∧
    decode .default (.frame (b "1001 011")) = .ok (.queryadjustTable7 .down) := by
  decide +kernel

/-- R57's reserved codes, R56's missing opcode, R60's reserved selector, a missing and a repeated operand: rejected by name. -/
theorem test_decode_rejects :
    decode .default (.frame (b "1000 0 00 0 01 00 0 0000 00000")) = .error (.reservedCode .sel) ∧
    decode .default (.frame (b "1001 00 111")) = .error (.reservedCode .updn) ∧
    decode .default (.frame (b "1011 0000")) = .error .noSuchFormat ∧
    decode .default (.frame (b "1010 000 000 01 10000000 00000000 00000000 0 0000000000000000")) = .error .pointerNotEbv ∧
    decode .default (.request ⟨0xE, []⟩) = .error (.reservedSelector 0xE) ∧
    decode .default (.request ⟨0x4, []⟩) = .error (.missingOperand .value) ∧
    decode .default (.request ⟨0x4, [(.value, .int 0), (.value, .int 1)]⟩) = .error .repeatedOperand := by
  decide +kernel

/-! ## The operations -/

/-- R185: a used block is cleared. -/
theorem test_reset :
    txOf (exec .reset { at_ 2000000 12 with mem := { capture := [], tx := [Level.H], frames := [[]], dcWindows := [[]] } }) = some [] := by
  decide +kernel

/-- P1: an omitted `pw_d` keeps 12. -/
theorem test_cfg_write_keeps_pulse_width :
    (match exec (.cfgWrite 2000000 none) State.reset with | .next t => some t.cfg | _ => none) = some ⟨some 2000000, 12⟩ := by
  decide +kernel

/-- V28. -/
theorem test_cfg_write_refuses_zero : refusalOf (exec (.cfgWrite 0 (some 12)) State.reset) = some .cfgValueNotPositive := by
  decide +kernel

/-- V2, V6. -/
theorem test_crc5 : bitsOf (exec (.crc5 (b "111110")) State.reset) = some (b "00100") ∧
    bitsOf (exec (.crc5 (List.replicate 17 true)) State.reset) = some (b "11010") := by
  decide +kernel

/-- V9: rests on R71. -/
theorem test_crc16 : bitsOf (exec (.crc16 (List.replicate 16 false)) State.reset) = some (b "1110001011110000") ∧
    bitsOf (exec (.crc16 (b "1")) State.reset) = some (b "0000000000000001") := by
  decide +kernel

/-- V17. -/
theorem test_ebv : bitsOf (exec (.ebv 300) State.reset) = some (b "10000010 00101100") ∧
    bitsOf (exec (.ebv 16384) State.reset) = some (b "10000001 10000000 00000000") := by
  decide +kernel

/-- V27; and the set named is that of the field Pointer under `W_PTR` (R101, R113 row 11). -/
theorem test_ebv_negative : statusOf (exec (.ebv (-1)) State.reset) = some (1, 10) ∧
    (match exec (.ebv (-1)) { State.reset with params := { Params.default with wPtr := some 8 } } with
      | .next t => t.outbox.map (·.allowed) | _ => []) = [some (.naturals (some 8))] := by decide +kernel

/-- V23. -/
theorem test_pie_encode : txOf (exec (.pieEncode (b "01")) (at_ 250000 12)) = some (runs [(.H, 3), (.L, 3), (.H, 9), (.L, 3)]) := by
  decide +kernel

/-- V28: `n_pw = 0`. -/
theorem test_pie_encode_refused : refusalOf (exec (.pieEncode (b "0")) (at_ 40000 12)) = some .pulseShorterThanSample := by
  decide +kernel

/-- V23: a TRcal pulse equal to `n_pw` has no high part. -/
theorem test_pie_preamble :
    txOf (exec (.piePreamble 666666 8) (at_ 2000000 12)) = some (runs [(.L, 24), (.H, 24), (.L, 24), (.H, 120), (.L, 48)]) := by
  decide +kernel

/-- V28: `n_trcal < n_pw`. -/
theorem test_pie_preamble_refused : refusalOf (exec (.piePreamble 1000000 8) (at_ 2000000 12)) = some .trcalShorterThanPulse := by
  decide +kernel

/-- V23: each count by its own formula. -/
theorem test_pie_framesync :
    txOf (exec .pieFramesync (at_ 1500000 (25 / 2))) = some (runs [(.L, 18), (.H, 19), (.L, 18), (.H, 94), (.L, 18)]) := by
  decide +kernel

/-- V11 and the length of V26. -/
theorem test_query : bitsOf (exec (.query (64 / 3) 4 true "all" "s1" "A" 4 40000) (at_ 2000000 12)) =
      some (b "1000 1 10 1 00 01 0 0100 11001") ∧
    (txOf (exec (.query (64 / 3) 4 true "all" "s1" "A" 4 40000) (at_ 2000000 12))).map List.length = some 2770 := by
  decide +kernel

/-- V27: the first in sent order, and before any refusal. -/
theorem test_query_first_error : statusOf (exec (.query 8 3 false "all" "s0" "A" 16 40000) State.reset) = some (1, 2) := by
  decide +kernel

/-- V26. -/
theorem test_queryrep : txOf (exec (.queryrep "s2") (at_ 250000 12)) =
    some (runs [(.L, 3), (.H, 3), (.L, 3), (.H, 15), (.L, 3), (.H, 3), (.L, 3), (.H, 3), (.L, 3), (.H, 9), (.L, 3), (.H, 3),
      (.L, 3)]) := by
  decide +kernel

/-- V28. -/
theorem test_queryrep_refused : refusalOf (exec (.queryrep "s0") State.reset) = some .rateUnset := by decide +kernel

/-- V20: rests on R71. -/
theorem test_select : bitsOf (exec (.select "inv-s2" 5 "TID" 128 4 (b "1100") true 40000 8) (at_ 250000 12)) =
    some (b "1010 010 101 10 10000001 00000000 00000100 1100 1 1111001111010100") := by
  decide +kernel

/-- V27: the mask comes before the preamble's DR. -/
theorem test_select_mask_before_dr :
    statusOf (exec (.select "sl" 0 "EPC" 0 8 (b "1111111") false 40000 21) (at_ 250000 12)) = some (2, 0) := by
  decide +kernel

/-- V24, V26. -/
theorem test_queryadjust : bitsOf (exec (.queryadjust (some "s2") "down" 40000 8) (at_ 250000 12)) = some (b "1001 10 011") ∧
    (txOf (exec (.queryadjust (some "s2") "down" 40000 8) (at_ 250000 12))).map List.length = some 161 := by
  decide +kernel

/-- V25, V27: under `table_7` the session is ignored. -/
theorem test_queryadjust_table_7 :
    bitsOf (exec (.queryadjust (some "s9") "up" 40000 8)
      { at_ 250000 12 with params := { Params.default with qadjLayout := .table_7 } }) = some (b "1001 110") := by
  decide +kernel

/-- V32: `start = 200` is kept, `start = 199` is dropped. -/
theorem test_extract_start_boundary :
    startsOf (exec (.extract 100 91 300) (withCapture 1000 [(100, 109), (900, 900)])) = some [200] ∧
    startsOf (exec (.extract 100 90 300) (withCapture 1000 [(100, 109), (900, 900)])) = some [] := by
  decide +kernel

/-- V31: `end = cap_len - 1` is kept, `end = cap_len` is dropped. -/
theorem test_extract_end_boundary :
    startsOf (exec (.extract 100 40 700) (withCapture 1000 [(250, 259), (999, 999)])) = some [299] ∧
    startsOf (exec (.extract 100 40 701) (withCapture 1000 [(250, 259), (999, 999)])) = some [] := by
  decide +kernel

/-- V41: at the peak's index the correlation is 150 times the level. -/
theorem test_sync_correlation :
    (correlation numericsExact (List.replicate 37 IQ.zero ++ ref.map (fun r => if r then ⟨1 / 2, -1 / 4⟩ else IQ.zero) ++
      List.replicate 63 IQ.zero))[187]? = some ⟨75, -75 / 2⟩ := by
  decide +kernel

/-- V49: a frame of 399 samples; and V45: 600 zeros. -/
theorem test_sync : statusOf (exec (.sync (.given (List.replicate 399 ⟨1, 0⟩))) State.reset) = some (5, 0) ∧
    resultOf (exec (.sync (.given (List.replicate 600 IQ.zero))) State.reset) = some (.sync 0 IQ.zero) := by
  refine ⟨by decide +kernel, ?_⟩
  have h : synchronize (numericsOf State.reset.params.numerics) (List.replicate 600 IQ.zero) = .ok (0, IQ.zero) :=
    synchronize_zeros (by decide)
  simp only [exec, execSync, frameOf, h]
  rfl

/-- Frame rows are refused (R60). -/
theorem test_frame_rows_refused :
    refusalOf (exec (.queryFrame ⟨.dr8, .m1, false, .all, .s0, .a, 0⟩ 0b10000) State.reset) =
      some (.frameIsNoOperation .query) := by decide +kernel

/-! ## The step and the host's moves -/

/-- The selector rows of the opcode table, right after reset: the word decodes to its row and step runs it (R26 refuses the
waveform operations there). -/
theorem test_table_words :
    decodeTableWord 8 0x4 = some (.ebv 0) ∧ decodeTableWord 8 0xE = none ∧
    bitsOf (step (State.reset.withFetchWord 8 0x2)) = some (b "01001") ∧
    refusalOf (step (State.reset.withFetchWord 8 0x9)) = some .rateUnset := by
  decide +kernel

/-- V27: `updn=6`, a number, reaches validation. -/
theorem test_step_number_as_token :
    statusOf (step { State.reset with inbox := [.offer (.request ⟨0xB, [(.blf, .int 40000), (.session, .token "s1"),
      (.updn, .int 6), (.dr, .int 8)]⟩)] }) = some (1, 14) := by
  decide +kernel

/-- R32: the bytes of 1.0 and -0.5, least significant first; a NaN is refused; nine bytes are refused. -/
theorem test_load_file :
    (match step { State.reset with inbox := [.move (.loadFile [0x00, 0x00, 0x80, 0x3F, 0x00, 0x00, 0x00, 0xBF])] } with
      | .next t => some t.mem.capture | _ => none) = some [⟨1, -1 / 2⟩] ∧
    refusalOf (step { State.reset with inbox := [.move (.loadFile [0x00, 0x00, 0xC0, 0x7F, 0x00, 0x00, 0x00, 0xBF])] }) =
      some .captureNotFinite ∧
    refusalOf (step { State.reset with inbox := [.move (.loadFile [0, 0, 0, 0, 0, 0, 0, 0, 0])] }) = some .captureNotWhole := by
  decide +kernel

/-- R192: overlapping Frames are separate copies. -/
theorem test_write_frame :
    (match step { State.reset with
        mem := { State.reset.mem with frames := [[⟨1, 0⟩], [⟨1, 0⟩]] }, inbox := [.move (.writeFrame 1 [⟨2, 0⟩])] } with
      | .next t => some t.mem.frames | _ => none) = some [[⟨1, 0⟩], [⟨2, 0⟩]] := by
  decide +kernel

/-- R166, R167: V27's codes. -/
theorem test_status_codes : statusCode { kind := .invalidParameter, field := .updn } = (1, 14) ∧
    statusCode { kind := .insufficientSamples, field := .none } = (5, 0) := by decide

/-! ## Witnesses: for each statement with hypotheses, a state and operands that meet all of them together -/

/-- Encoded forms of every kind: a request with every operand, and the two frames with check bits. -/
theorem test_witness_DecodeInvertsEncode :
    wellFormed .default (.select "sl" 9 "" (-1) 300 [true] true 0 0) = true ∧
    wellFormed { Params.default with qadjLayout := .table_7 } (.queryadjust none "up" 40000 8) = true ∧
    wellFormed .default (.queryFrame ⟨.dr64_3, .m4, true, .all, .s1, .a, 4⟩ 0b11001) = true ∧
    wellFormed .default (.selectFrame ⟨.invS0, 0, .epc, 0, [], false⟩ 0x5051) = true ∧
    wellFormed .default (.queryadjustFrame .s3 .down) = true := by
  decide +kernel

theorem test_witness_RequestOperandsComeInAnyOrder :
    ([(.blf, .int 40000), (.dr, .int 8)] : List (OperandName × Value)).Perm [(.dr, .int 8), (.blf, .int 40000)] ∧
    decode .default (.request ⟨0x6, [(.blf, .int 40000), (.dr, .int 8)]⟩) = .ok (.piePreamble 40000 8) :=
  ⟨List.Perm.swap _ _ _, by decide +kernel⟩

/-- A block with the host's moves given. -/
def withMoves (moves : List HostInput) : State := { State.reset with inbox := moves }

theorem test_witness_ReservedSelectorsAreRefused :
    ∀ op ∈ [(0xE : BitVec 4), 0xF], (op = 0xE ∨ op = 0xF) ∧ (withMoves [.offer (.request ⟨op, []⟩)]).busy = false ∧
      (withMoves [.offer (.request ⟨op, []⟩)]).inbox = .offer (.request ⟨op, []⟩) :: [] := by
  decide

/-- Two payloads that agree; masks of the greatest length, 255. -/
theorem test_witness_FrameBitsDetermineTheFields :
    (List.replicate 255 true).length ≤ 255 ∧
    ∃ f g : SelectFields, f.mask.length ≤ 255 ∧ g.mask.length ≤ 255 ∧ selectPayload f = selectPayload g :=
  ⟨by decide +kernel, ⟨.sl, 7, .file0, 128, List.replicate 3 true, true⟩, _, by decide, by decide, rfl⟩

/-- Both clauses: a form that decodes, and one that does not. -/
theorem test_witness_StepRunsTheDecodedInstruction :
    (withMoves [.offer (.request ⟨0x9, [(.session, .token "s2")]⟩)]).busy = false ∧
    decode (withMoves []).params (.request ⟨0x9, [(.session, .token "s2")]⟩) = .ok (.queryrep "s2") ∧
    decode (withMoves []).params (.request ⟨0x9, []⟩) = .error (.missingOperand .session) := by
  decide +kernel

theorem test_witness_NoOperationStartsByItself : (withMoves []).inbox = [] := rfl

theorem test_witness_MovesAreHeldWhileBusy :
    let s := { withMoves [.move (.loadSamples [])] with busy := true }
    s.busy = true ∧ s.inbox ≠ [] := by
  decide

/-- A configured block in mid-run, with a request pending. -/
def midRun : State := { at_ 2000000 12 with
  status := { kind := .invalidParameter, field := .session },
  inbox := [.offer (.request ⟨0x4, [(.value, .int 300)]⟩)],
  outbox := [{ status := { kind := .invalidParameter, field := .session }, allowed := some sessionSet, result := .nothing }] }

theorem test_witness_EveryStepKeepsTheInvariant : Inv midRun ∧ ∃ t, step midRun = .next t := by
  refine ⟨⟨by decide, by decide +kernel, by decide, by decide, ?_, by decide, by decide, by decide⟩, ⟨_, rfl⟩⟩
  intro r h
  simp [midRun] at h
  simp [← h, midRun]

/-- An operation of every shape of end: a result, an error, a waveform, RESET, CFG_WRITE. -/
theorem test_witness_EveryOperationDeliversOneResponse :
    (∃ t, exec (.crc5 []) State.reset = .next t) ∧ (∃ t, exec (.ebv (-1)) State.reset = .next t ∧ t.status.kind ≠ .ok) ∧
    (∃ t, exec .pieFramesync (at_ 2000000 12) = .next t) ∧ (∃ t, exec .reset (at_ 2000000 12) = .next t) := by
  refine ⟨⟨_, rfl⟩, ⟨_, rfl, by decide⟩, ?_, ⟨_, rfl⟩⟩
  have h : (txOf (exec .pieFramesync (at_ 2000000 12))).isSome = true := by decide +kernel
  cases h' : exec .pieFramesync (at_ 2000000 12) with
  | next t => exact ⟨t, rfl⟩
  | fault f => simp [h', txOf] at h
  | refused r => simp [h', txOf] at h

theorem test_witness_ErrorsChangeOnlyTheStatus :
    ∃ t, exec (.queryrep "s4") (at_ 2000000 12) = .next t ∧ t.status.kind ≠ .ok ∧ t.status.field ≠ .none :=
  ⟨_, rfl, by decide, by decide⟩

/-- One error of each kind. -/
theorem test_witness_ErrorKindsHaveTheirRaisers :
    statusOf (exec (.ebv (-1)) State.reset) = some (1, 10) ∧
    statusOf (exec (.select "sl" 0 "EPC" 0 8 [true] false 40000 8) State.reset) = some (2, 0) ∧
    statusOf (exec (.sync (.given [])) State.reset) = some (5, 0) := by
  decide +kernel

/-- Both clauses, at Length 255 with a mask of 254 bits, and at Length 0 with one of 1. -/
theorem test_witness_MaskMismatchIsRaisedBySelectOnly :
    (∃ t, exec (.select "sl" 7 "EPC" 0 0 [true] false 40000 8) State.reset = .next t ∧
      t.status.kind = .maskLengthMismatch) ∧
    (((List.replicate 254 true).length : Int) ≠ 255 ∧
      firstBad ((selectChecks none "sl" 7 "EPC" 0 255 (List.replicate 254 true) 8).take 5) = none) :=
  ⟨⟨_, rfl, by decide⟩, by decide +kernel, by decide +kernel⟩

theorem test_witness_OnlyCfgWriteAndResetWriteCfg :
    ∃ t, exec .reset (at_ 2000000 12) = .next t ∧ t.cfg ≠ (at_ 2000000 12).cfg := ⟨_, rfl, by decide +kernel⟩

theorem test_witness_NoOperationWritesTheCapture :
    ∃ t, exec .reset (withCapture 3 []) = .next t ∧ capLen (withCapture 3 []).mem = 3 := ⟨_, rfl, by decide +kernel⟩

theorem test_witness_OnlyExtractAndResetWriteTheFrameStore :
    ∃ s t, exec .reset s = .next t ∧ t.mem.frames ≠ s.mem.frames :=
  ⟨{ State.reset with mem := { State.reset.mem with frames := [[]], dcWindows := [List.replicate 200 IQ.zero] } }, _, rfl,
    by decide⟩

/-- Both ends: RESET empties the buffer, PIE_ENCODE fills it. -/
theorem test_witness_TxBufferHoldsTheDeliveredWaveform :
    (∃ s t, exec .reset s = .next t ∧ t.mem.tx ≠ s.mem.tx) ∧
    txOf (exec (.pieEncode [false]) (at_ 250000 12)) ≠ some (at_ 250000 12).mem.tx :=
  ⟨⟨{ State.reset with mem := { State.reset.mem with tx := [Level.H] } }, _, rfl, by decide⟩, by decide +kernel⟩

/-- Two states that differ in the status, the buffer and the working registers, and a frame given and stored. -/
theorem test_witness_ResponsesHaveNoHiddenInputs :
    let s := State.reset
    let s' := { State.reset with status := failureStatus .tooFewSamples, work := { Work.reset with crc16 := 5 },
                                 mem := { State.reset.mem with tx := [Level.H] } }
    s ≠ s' ∧ s.cfg = s'.cfg ∧ s.mem.capture = s'.mem.capture ∧ s.params = s'.params ∧
      (∀ k, frameOf s.mem (.stored k) = frameOf s'.mem (.stored k)) ∧ (∃ t, exec (.ebv 300) s = .next t) ∧
      (∃ r, exec (.queryrep "s0") s = .refused r) :=
  ⟨by decide, rfl, rfl, rfl, fun _ => rfl, ⟨_, rfl⟩, ⟨.rateUnset, rfl⟩⟩

/-- The admitted and the refused values, the refused ones at 0. -/
theorem test_witness_CfgWriteSetsTheConfiguration :
    ((0 : Rat) < 1 / 1000000 ∧ ∀ v ∈ some (1 / 1000000 : Rat), 0 < v) ∧ (0 : Rat) ≤ 0 ∧ ∃ v ∈ some (0 : Rat), v ≤ 0 := by
  refine ⟨⟨by norm_num, ?_⟩, le_refl _, ⟨0, rfl, le_refl _⟩⟩
  intro v h
  cases h
  norm_num

theorem test_witness_Crc5IsLinear :
    [true, false].length = [true, true].length ∧ [true, true].length = [false, false].length := by decide

theorem test_witness_Crc16Completes : (at_ 2000000 12).params.crc16 = .gen2 := rfl

theorem test_witness_SampleCountsAreExactFloors : (0 : Rat) < 1 / 3 ∧ (0 : Rat) < 25 / 2 ∧ (0 : Rat) < 40000 := by norm_num

/-- At the boundary `n = n_pw`, and above it. -/
theorem test_witness_PulsesAreHighThenLow :
    (timingOf 250000 12).nPw ≤ 3 ∧ (timingOf 250000 12).nPw ≤ 12 ∧ 0 < 12 - (timingOf 250000 12).nPw := by
  decide +kernel

/-- For PieEncodeCompletes, PieFramesyncCompletes, EncodedLengthIsTheSumOfSymbols: an admitted configuration at the least pulse,
`n_pw = 1` at 1 MHz and 1 us. -/
theorem test_witness_ConfigAdmitted : ConfigAdmitted (at_ 1000000 1) 1000000 :=
  ⟨rfl, by norm_num, by norm_num [at_], by simp [at_]⟩

/-- For PiePreambleCompletes, first clause: an admitted preamble at the least TRcal, `n_trcal = n_pw = 24`, for both divide ratios. -/
theorem test_witness_PreambleAdmitted :
    PreambleAdmitted (at_ 2000000 12) 2000000 666666 8 ∧ PreambleAdmitted (at_ 2000000 12) 2000000 1777777 (64 / 3) := by
  constructor
  · exact ⟨⟨rfl, by norm_num, by norm_num [at_], by norm_num [at_]⟩, by norm_num, by norm_num [at_]⟩
  · exact ⟨⟨rfl, by norm_num, by norm_num [at_], by norm_num [at_]⟩, by norm_num, by norm_num [at_]⟩

/-- A divide ratio that is neither: PIE_PREAMBLE's second clause. -/
theorem test_witness_PiePreambleCompletes : (21 : Rat) ≠ 8 ∧ (21 : Rat) ≠ 64 / 3 := by norm_num

/-- The refused values of EBV at -1. -/
theorem test_witness_EbvCompletes : (-1 : Int) < 0 := by decide

/-- The fields of V11 at the greatest Q; the preamble is `test_witness_PreambleAdmitted`'s. -/
theorem test_witness_QueryTransmitsItsFrame :
    ((64 / 3 : Rat), [true]) ∈ [((8 : Rat), [false]), (64 / 3, [true])] ∧
    ((8 : Int), [true, true]) ∈ [((1 : Int), [false, false]), (2, [false, true]), (4, [true, false]), (8, [true, true])] ∧
    ("sl", [true, true]) ∈ [("all", [false, false]), ("~sl", [true, false]), ("sl", [true, true])] ∧
    ("s3", [true, true]) ∈ [("s0", [false, false]), ("s1", [false, true]), ("s2", [true, false]), ("s3", [true, true])] ∧
    ("B", [true]) ∈ [("A", [false]), ("B", [true])] ∧ 15 ≤ 15 ∧
    PreambleAdmitted (at_ 2000000 12) 2000000 1777777 (64 / 3) :=
  ⟨by simp, by simp, by simp, by simp, by simp, le_refl _, test_witness_PreambleAdmitted.2⟩

/-- Both clauses, the second at the near misses `s4` and `S0`. -/
theorem test_witness_QueryrepTransmitsItsFrame :
    ("s3", [true, true]) ∈ [("s0", [false, false]), ("s1", [false, true]), ("s2", [true, false]), ("s3", [true, true])] ∧
    ConfigAdmitted (at_ 1000000 1) 1000000 ∧ "s4" ∉ ["s0", "s1", "s2", "s3"] ∧ "S0" ∉ ["s0", "s1", "s2", "s3"] :=
  ⟨by simp, test_witness_ConfigAdmitted, by decide, by decide⟩

/-- The greatest Action and mask length. -/
theorem test_witness_SelectTransmitsItsFrame :
    ("sl", [true, false, false]) ∈ [("inv-s0", [false, false, false]), ("inv-s1", [false, false, true]),
      ("inv-s2", [false, true, false]), ("inv-s3", [false, true, true]), ("sl", [true, false, false])] ∧
    ("File_0", [true, true]) ∈ [("FileType", [false, false]), ("EPC", [false, true]), ("TID", [true, false]),
      ("File_0", [true, true])] ∧
    7 ≤ 7 ∧ (List.replicate 255 true).length ≤ 255 ∧ (∀ w ∈ (at_ 2000000 12).params.wPtr, 16384 < 2 ^ w) ∧
    ((8 : Rat) = 8 ∨ (8 : Rat) = 64 / 3) ∧ PreambleAdmitted (at_ 2000000 12) 2000000 666666 8 :=
  ⟨by simp, by simp, le_refl _, by decide +kernel, by simp [at_, State.reset, Params.default], .inl rfl,
    test_witness_PreambleAdmitted.1⟩

/-- Both layouts. -/
theorem test_witness_QueryadjustTransmitsItsFrame :
    ("down", [false, true, true]) ∈ [("up", [true, true, false]), ("keep", [false, false, false]),
      ("down", [false, true, true])] ∧
    PreambleAdmitted (at_ 2000000 12) 2000000 666666 8 ∧ (at_ 2000000 12).params.qadjLayout = .gen2_9 ∧
    (some "s3" = some "s3" ∧ ("s3", [true, true]) ∈
      [("s0", [false, false]), ("s1", [false, true]), ("s2", [true, false]), ("s3", [true, true])]) ∧
    ({ Params.default with qadjLayout := .table_7 } : Params).qadjLayout = .table_7 ∧
    PreambleAdmitted { at_ 2000000 12 with params := { Params.default with qadjLayout := .table_7 } } 2000000 666666 8 :=
  ⟨by simp, test_witness_PreambleAdmitted.1, rfl, by simp, rfl,
    ⟨⟨rfl, by norm_num, by norm_num [at_], by norm_num [at_]⟩, by norm_num, by norm_num [at_]⟩⟩

/-- Every row of QUERY's checks fails somewhere first; Q at 16 and -1. -/
theorem test_witness_QueryReportsTheFirstBadField :
    firstBad (queryChecks 21 3 "x" "s4" "a" 16) = some (.invalid .dr (.rats [8, 64 / 3])) ∧
    firstBad (queryChecks 8 3 "x" "s4" "a" 16) = some (.invalid .m (.ints [1, 2, 4, 8])) ∧
    firstBad (queryChecks 8 1 "x" "s4" "a" 16) = some (.invalid .sel (.tokens ["all", "~sl", "sl"])) ∧
    firstBad (queryChecks 8 1 "sl" "s4" "a" 16) = some (.invalid .session (.tokens ["s0", "s1", "s2", "s3"])) ∧
    firstBad (queryChecks 8 1 "sl" "s0" "a" 16) = some (.invalid .target (.tokens ["A", "B"])) ∧
    firstBad (queryChecks 8 1 "sl" "s0" "B" 16) = some (.invalid .q (.range 0 15)) ∧
    firstBad (queryChecks (64 / 3) 1 "sl" "s0" "B" (-1)) = some (.invalid .q (.range 0 15)) := by
  decide +kernel

/-- Every row of SELECT's checks; Action at 8, Pointer at -1 and at `2^W_PTR`, Length at 256. -/
theorem test_witness_SelectReportsTheFirstBadField :
    firstBad (selectChecks none "A" 8 "x" (-1) 256 [true] 21) =
      some (.invalid .target (.tokens ["inv-s0", "inv-s1", "inv-s2", "inv-s3", "sl"])) ∧
    firstBad (selectChecks none "sl" 8 "x" (-1) 256 [true] 21) = some (.invalid .action (.range 0 7)) ∧
    firstBad (selectChecks none "sl" 7 "x" (-1) 256 [true] 21) =
      some (.invalid .membank (.tokens ["FileType", "EPC", "TID", "File_0"])) ∧
    firstBad (selectChecks none "sl" 7 "TID" (-1) 256 [true] 21) = some (.invalid .pointer (.naturals none)) ∧
    firstBad (selectChecks (some 4) "sl" 7 "TID" 16 256 [true] 21) = some (.invalid .pointer (.naturals (some 4))) ∧
    firstBad (selectChecks (some 4) "sl" 7 "TID" 15 256 [true] 21) = some (.invalid .length (.range 0 255)) ∧
    firstBad (selectChecks none "sl" 7 "TID" 0 0 [true] 21) = some .maskLength ∧
    firstBad (selectChecks none "sl" 7 "TID" 0 1 [true] 21) = some (.invalid .dr (.rats [8, 64 / 3])) := by
  decide +kernel

/-- Every row of QUERYADJUST's checks, in both layouts. -/
theorem test_witness_QueryadjustReportsTheFirstBadField :
    firstBad (queryAdjustChecks .gen2_9 (some "s4") "x" 21) = some (.invalid .session (.tokens ["s0", "s1", "s2", "s3"])) ∧
    firstBad (queryAdjustChecks .gen2_9 (some "s0") "x" 21) = some (.invalid .updn (.tokens ["up", "keep", "down"])) ∧
    firstBad (queryAdjustChecks .table_7 (some "s4") "x" 21) = some (.invalid .updn (.tokens ["up", "keep", "down"])) ∧
    firstBad (queryAdjustChecks .table_7 none "up" 21) = some (.invalid .dr (.rats [8, 64 / 3])) := by
  decide +kernel

/-- A clause each: rate unset; a value at 0; `n_pw = 0` below 1 MHz at 1 us; `blf = 0`; `n_trcal` one short of `n_pw`. -/
theorem test_witness_WaveformsAreRefusedOffTheirConditions :
    LegalWaveform Params.default (.piePreamble 0 8) (some (0, 8)) ∧ State.reset.cfg.rate = none ∧
    ((at_ 0 12).cfg.rate = some 0 ∧ (0 : Rat) ≤ 0) ∧ ((at_ 1 0).cfg.pwD ≤ 0) ∧
    ((0 : Rat) < 999999 ∧ 0 < (at_ 999999 1).cfg.pwD ∧ ⌊(at_ 999999 1).cfg.pwD * 999999 / 1000000⌋ < 1) ∧
    (ConfigAdmitted (at_ 1000000 1) 1000000 ∧ (0 : Rat) ≤ 0) ∧
    ((0 : Rat) < 695652 ∧ ⌊(8 : Rat) * 2000000 / 695652⌋ < ⌊(at_ 2000000 12).cfg.pwD * 2000000 / 1000000⌋) :=
  ⟨.piePreamble 0 8 (by simp), rfl, ⟨rfl, le_refl _⟩, by norm_num [at_],
    ⟨by norm_num, by norm_num [at_], by norm_num [at_]⟩, ⟨test_witness_ConfigAdmitted, le_refl _⟩,
    ⟨by norm_num, by norm_num [at_]⟩⟩

theorem test_witness_ProducedFramesAreLegal :
    ∃ t fb wf, exec (.queryrep "s2") (at_ 2000000 12) = .next t ∧
      t.outbox = (at_ 2000000 12).outbox ++ [okResponse (.frame fb wf)] := by
  have hk : ∀ a : Answer, (match a with
      | .next t => match t.outbox with
        | [⟨st, al, .frame _ _⟩] => decide (st = statusOk) && decide (al = none)
        | _ => false
      | _ => false) = true → ∃ t fb wf, a = .next t ∧ t.outbox = [okResponse (.frame fb wf)] := by
    intro a h
    split at h
    · split at h
      · rename_i t _ st al fb wf ho
        simp only [Bool.and_eq_true, decide_eq_true_eq] at h
        exact ⟨t, fb, wf, rfl, by rw [ho, h.1, h.2]; rfl⟩
      · exact absurd h (by decide)
    · exact absurd h (by decide)
  exact hk _ (by decide +kernel)

/-- Each operand at -1. -/
theorem test_witness_ExtractRefusesNegativeOperands :
    ((-1 : Int) < 0 ∨ (0 : Int) < 0 ∨ (0 : Int) < 0) ∧ ((0 : Int) < 0 ∨ (-1 : Int) < 0 ∨ (0 : Int) < 0) ∧
    ((0 : Int) < 0 ∨ (0 : Int) < 0 ∨ (-1 : Int) < 0) := by decide

/-- A window of 400 samples, the first and the last index. -/
theorem test_witness_CorrelationSumsUnderTheReference :
    (List.replicate 400 (⟨1, 0⟩ : IQ)).length = 400 ∧ 0 < 400 ∧ 399 < 400 := by decide +kernel

/-- The zero frame, whose peak is 0: at 400 samples and at 549; 399 samples; the last entry of a frame store. -/
theorem test_witness_SyncCompletesOrReportsTooFewSamples :
    (400 ≤ (List.replicate 400 IQ.zero).length ∧
      peakIndex numericsExact (List.replicate 400 IQ.zero) - 150 + 300 ≤ (List.replicate 400 IQ.zero).length) ∧
    549 ≤ (List.replicate 549 IQ.zero).length ∧ (List.replicate 399 IQ.zero).length < 400 ∧
    ([[], List.replicate 399 IQ.zero] : List Samples)[1]? = some (List.replicate 399 IQ.zero) := by
  have h := peakIndex_zeros 400
  refine ⟨⟨by decide +kernel, ?_⟩, by decide +kernel, by decide +kernel, rfl⟩
  rw [h]
  decide +kernel

/-- An empty store, and the first index past a store of one. -/
theorem test_witness_SyncOfAMissingEntryIsRefused :
    State.reset.mem.frames.length ≤ 0 ∧ ([[]] : List Samples).length ≤ 1 := by decide

/-- A start at the last place the reference fits. -/
theorem test_witness_ChannelEstimateIsTheMean : 100 + 300 ≤ (List.replicate 400 (⟨1, 0⟩ : IQ)).length := by decide +kernel

/-- The least length, and the zero and a non-zero constant. -/
theorem test_witness_SyncOfAConstantFrame :
    400 ≤ 400 ∧ State.reset.params.numerics = .exact ∧ (⟨1, 0⟩ : IQ) ≠ IQ.zero := by decide +kernel

/-- Both ends of the offset. -/
theorem test_witness_SyncFindsThePattern :
    0 ≤ 100 ∧ 100 ≤ 100 ∧ 400 ≤ 400 ∧ (⟨0, 1⟩ : IQ) ≠ IQ.zero ∧ State.reset.params.numerics = .exact := by decide +kernel

theorem test_witness_SyncScalesWithTheFrame :
    (⟨0, 2⟩ : IQ) ≠ IQ.zero ∧ State.reset.params.numerics = .exact ∧
    Delivers (.sync (.given (List.replicate 400 IQ.zero))) State.reset (.sync 0 IQ.zero) := by
  refine ⟨by decide +kernel, rfl, finish statusOk none (.sync 0 IQ.zero) State.reset, ?_, ⟨rfl, rfl, rfl, rfl, rfl, rfl⟩,
    ⟨rfl, rfl⟩⟩
  have h : synchronize (numericsOf State.reset.params.numerics) (List.replicate 400 IQ.zero) = .ok (0, IQ.zero) :=
    synchronize_zeros (by decide)
  simp only [exec, execSync, frameOf, h]
  rfl

/-- The bytes of the file `1.0, -0.5`. -/
def oneSample : List (BitVec 8) := [0x00, 0x00, 0x80, 0x3F, 0x00, 0x00, 0x00, 0xBF]

/-- A clause each: finite floats, with `CAP_MAX` at the file's length; a length of 9; a NaN in each part; `CAP_MAX` one short; and
the same bounds for a load of samples. -/
theorem test_witness_CaptureFileBecomesSamples :
    (withMoves [.move (.loadFile oneSample)]).busy = false ∧
    (withMoves [.move (.loadFile oneSample)]).inbox = .move (.loadFile oneSample) :: [] ∧
    oneSample.length = 8 * 1 ∧ (binary32 0x3F800000).isSome = true ∧ (binary32 0xBF000000).isSome = true ∧
    (∀ c ∈ some 1, 1 ≤ c) ∧ (0 :: oneSample).length % 8 ≠ 0 ∧ binary32 0x7FC00000 = none ∧ binary32 0xFF800000 = none ∧
    (∃ c ∈ some 0, c < 1) ∧ (withMoves [.move (.loadSamples [⟨1, 0⟩])]).busy = false ∧
    (withMoves [.move (.loadSamples [⟨1, 0⟩])]).inbox = .move (.loadSamples [⟨1, 0⟩]) :: [] ∧
    (∀ c ∈ some 1, ([⟨1, 0⟩] : Samples).length ≤ c) ∧ (∃ c ∈ some 0, c < ([⟨1, 0⟩] : Samples).length) := by
  decide +kernel

/-- Every bound met with equality, and exponent 254. -/
theorem test_witness_Binary32HasItsValue :
    1 ≤ 1 ∧ 255 ≤ 255 ∧ 254 ≤ 255 ∧ 0 ≤ 255 ∧ 2 ^ 23 - 1 < 2 ^ 23 := by decide

theorem test_witness_HostChangesOneFrameOnly :
    let s := { withMoves [.move (.writeFrame 1 [⟨2, 0⟩])] with
      mem := { State.reset.mem with frames := [[⟨1, 0⟩], [⟨1, 0⟩]] } }
    s.busy = false ∧ s.inbox = .move (.writeFrame 1 [⟨2, 0⟩]) :: [] ∧ s.mem.frames[1]? = some [⟨1, 0⟩] ∧
      ([⟨2, 0⟩] : Samples).length = ([⟨1, 0⟩] : Samples).length := by
  decide +kernel

end Sys2Proof.Tests
end

section
/-! PROOF. The step and the invariant of a run: O7, O9, O10, O11, O16. An operation runs in a state that meets part of the
invariant (`Running`), and its end restores the whole. -/

namespace Sys2Proof.Machine

/-! ## The step (R19) -/

/-- Settles O7: at a state that is not busy, `fetch` is the decoder's word on the oldest move. -/
theorem stepRunsTheDecodedInstruction : Obligations.StepRunsTheDecodedInstruction := by
  intro s w rest hb hin
  have ha : accepted s = { s with inbox := rest, busy := true } := by simp [accepted, accept, takeInput, hin]
  refine ⟨fun i hd => ?_, fun why hd => ?_⟩
  · simp [step, fetch, hin, hb, hd, ha]
  · simp [step, fetch, hin, hb, hd]

/-- Settles O9: `fetch` looks at `busy` before it looks at the move. -/
theorem movesAreHeldWhileBusy : Obligations.MovesAreHeldWhileBusy := by
  intro s hb hin
  obtain ⟨h, rest, hin⟩ := List.exists_cons_of_ne_nil hin
  simp [step, fetch, hin, hb]

/-- What a step that answers a next state did: nothing, an operation, or a memory move of the host. -/
theorem step_next_cases {s t : State} (h : step s = .next t) :
    t = s ∨ (∃ i, exec i (accepted s) = .next t) ∨ ∃ m, hostMove m (takeInput s) = .next t := by
  unfold step at h
  cases hf : fetch s with
  | idle => simp only [hf, Host.Outcome.next.injEq] at h; exact .inl h.symm
  | held => simp [hf] at h
  | reject why => simp [hf] at h
  | run i => exact .inr (.inl ⟨i, by simpa [hf] using h⟩)
  | load m => exact .inr (.inr ⟨m, by simpa [hf] using h⟩)

theorem hostLoadSamples_next {xs : Samples} {s t : State} (h : hostLoadSamples xs s = .next t) :
    captureFits s.params.capMax xs.length = true ∧ t = loadCapture xs s := by
  unfold hostLoadSamples at h
  split at h
  · exact ⟨‹_›, (Host.Outcome.next.inj h).symm⟩
  · cases h

/-- What a memory move of the host did: it loaded a capture that fits (R31), or it changed one Frame at its length (R38). -/
theorem hostMove_next_cases {m : HostMove} {s t : State} (h : hostMove m s = .next t) :
    (∃ xs, captureFits s.params.capMax xs.length = true ∧ t = loadCapture xs s) ∨
    ∃ k f g, s.mem.frames[k]? = some g ∧ g.length = f.length ∧ t = setFrame k f s := by
  cases m with
  | loadFile file =>
    simp only [hostMove, hostLoadFile] at h
    split at h
    · cases h
    · exact .inl ⟨_, hostLoadSamples_next h⟩
  | loadSamples xs => exact .inl ⟨xs, hostLoadSamples_next h⟩
  | writeFrame k f =>
    simp only [hostMove, hostWriteFrame] at h
    split at h
    · cases h
    · rename_i g hg
      split at h
      · exact .inr ⟨k, f, g, hg, ‹_›, (Host.Outcome.next.inj h).symm⟩
      · cases h

/-! ## The invariant -/

/-- Settles O10: every clause is a fact about the literal state of R25. -/
theorem resetMeetsTheInvariant : Obligations.ResetMeetsTheInvariant where
  idle := rfl
  cfg := by decide +kernel
  status := by decide
  responses := by simp [State.reset]
  last := by simp [State.reset]
  mem := reset_mem_wf
  capture := rfl
  fb := rfl

theorem okResponse_legal (r : Result) : responseLegal (okResponse r) = true := by
  simp [okResponse, responseLegal, statusLegal, statusOk]

theorem errorResponse_legal {e : Failure} (h : Raisable e) : responseLegal (errorResponse e) = true := by
  cases e with
  | invalid f a =>
    obtain ⟨hn, ht, hm, hu⟩ := h
    simp [errorResponse, responseLegal, statusLegal, failureStatus, failureAllowed, hn, ht, hm, hu]
  | maskLength => decide
  | tooFewSamples => decide

theorem status_legal_of_responseLegal {r : Response} (h : responseLegal r = true) : statusLegal r.status = true := by
  simp only [responseLegal, Bool.and_eq_true] at h
  obtain ⟨⟨hs, -⟩, -⟩ := h
  exact hs

theorem cfgLegal_iff {c : Cfg} : cfgLegal c = true ↔ 0 < c.pwD ∧ ∀ rate ∈ c.rate, 0 < rate := by
  obtain ⟨rate, pwD⟩ := c
  cases rate <;> simp [cfgLegal]

/-- The clauses of the invariant that hold while an operation runs; its end restores the others. -/
structure Running (s : State) : Prop where
  cfg       : cfgLegal s.cfg = true
  responses : ∀ r ∈ s.outbox, responseLegal r = true
  mem       : s.mem.wf = true
  capture   : captureFits s.params.capMax s.mem.capture.length = true

theorem Inv.running_accepted {s : State} (h : Inv s) : Running (accepted s) :=
  ⟨h.cfg, h.responses, h.mem, h.capture⟩

/-- The end of an operation with a legal response restores the invariant (R18, R19). -/
theorem Running.inv_finish {s : State} (h : Running s) {st : Status} {al : Option AllowedSet} {r : Result}
    (hr : responseLegal { status := st, allowed := al, result := r } = true) : Inv (finish st al r s) where
  idle := rfl
  cfg := h.cfg
  status := status_legal_of_responseLegal hr
  responses := by
    intro x hx
    obtain hx | rfl : x ∈ s.outbox ∨ x = _ := by simpa using hx
    · exact h.responses x hx
    · exact hr
  last := by
    intro x hx
    obtain rfl : _ = x := by simpa using hx
    rfl
  mem := h.mem
  capture := h.capture
  fb := rfl

theorem Running.writeTx {s : State} (h : Running s) (wf : Waveform) : Running (writeTx wf s) :=
  ⟨h.cfg, h.responses, writeTx_wf wf h.mem, h.capture⟩

theorem Running.resetBlock {s : State} (h : Running s) : Running (resetBlock s) :=
  ⟨resetMeetsTheInvariant.cfg, h.responses, resetBlock_wf s, h.capture⟩

theorem Running.writeCfg {s : State} (h : Running s) {rate : Rat} {pwD : Option Rat} (hr : 0 < rate)
    (hp : ∀ v ∈ pwD, 0 < v) : Running (writeCfg rate pwD s) := by
  obtain ⟨hpw, -⟩ := cfgLegal_iff.1 h.cfg
  have hpw' : 0 < pwD.getD s.cfg.pwD := by
    cases pwD with
    | none => exact hpw
    | some v => exact hp v rfl
  exact ⟨cfgLegal_iff.2 ⟨hpw', by simpa using hr⟩, h.responses, h.mem, h.capture⟩

theorem Running.writeCarved {s : State} (h : Running s) {nT1 n : Nat} {ks : List Nat} {ws : List Window}
    (hc : carve s.mem nT1 n ks = .ok ws) :
    Running (writeFrameStore (ws.map (·.frame)) (ws.map (·.dcWindow)) s) := by
  have hl := carve_lengths hc
  refine ⟨h.cfg, h.responses, writeFrameStore_wf (n := n) (by simp) ?_ ?_, h.capture⟩
  · simpa using fun w hw => (hl w hw).2
  · simpa using fun w hw => (hl w hw).1

/-- Every operation that ends leaves the invariant. -/
theorem exec_inv {i : Instr} {s t : State} (hs : Running s) (h : exec i s = .next t) : Inv t := by
  cases exec_next_cases h with
  | result r _ ht => exact ht ▸ hs.inv_finish (okResponse_legal r)
  | error e he ht => exact ht ▸ hs.inv_finish (errorResponse_legal he)
  | waveform wf r _ ht => exact ht ▸ (hs.writeTx wf).inv_finish (okResponse_legal r)
  | reset _ ht => exact ht ▸ hs.resetBlock.inv_finish (okResponse_legal _)
  | cfg rate pwD _ hr hp ht => exact ht ▸ (hs.writeCfg hr hp).inv_finish (okResponse_legal _)
  | extract _ _ _ ws _ hc ht => exact ht ▸ (hs.writeCarved hc).inv_finish (okResponse_legal _)

theorem Inv.takeInput {s : State} (h : Inv s) : Inv (takeInput s) :=
  ⟨h.idle, h.cfg, h.status, h.responses, h.last, h.mem, h.capture, h.fb⟩

theorem Inv.loadCapture {s : State} (h : Inv s) {xs : Samples}
    (hx : captureFits s.params.capMax xs.length = true) : Inv (loadCapture xs s) :=
  ⟨h.idle, h.cfg, h.status, h.responses, h.last, loadCapture_wf xs h.mem, hx, h.fb⟩

theorem Inv.setFrame {s : State} (h : Inv s) {k : Nat} {f g : Samples} (hg : s.mem.frames[k]? = some g)
    (hl : g.length = f.length) : Inv (setFrame k f s) :=
  ⟨h.idle, h.cfg, h.status, h.responses, h.last, setFrame_wf h.mem hg hl, h.capture, h.fb⟩

theorem hostMove_inv {m : HostMove} {s t : State} (hs : Inv s) (h : hostMove m s = .next t) : Inv t := by
  obtain ⟨xs, hx, rfl⟩ | ⟨k, f, g, hg, hl, rfl⟩ := hostMove_next_cases h
  · exact hs.loadCapture hx
  · exact hs.setFrame hg hl

/-- Settles O11: an operation restores the invariant at its end, a move of the host keeps it. -/
theorem everyStepKeepsTheInvariant : Obligations.EveryStepKeepsTheInvariant := by
  intro s t hs h
  obtain rfl | ⟨i, hi⟩ | ⟨m, hm⟩ := step_next_cases h
  · exact hs
  · exact exec_inv hs.running_accepted hi
  · exact hostMove_inv hs.takeInput hm

/-! ## Who writes `cfg` -/

/-- Settles O16: of the ways an operation ends, RESET's and CFG_WRITE's alone touch `cfg`. -/
theorem onlyCfgWriteAndResetWriteCfg : Obligations.OnlyCfgWriteAndResetWriteCfg := by
  intro i s t h hne
  cases exec_next_cases h with
  | result r _ ht => exact absurd (by simp [ht]) hne
  | error e _ ht => exact absurd (by simp [ht]) hne
  | waveform wf r _ ht => exact absurd (by simp [ht]) hne
  | reset hi _ => exact .inl hi
  | cfg rate pwD hi _ _ _ => exact .inr ⟨rate, pwD, hi⟩
  | extract _ _ _ ws _ _ ht => exact absurd (by simp [ht]) hne

end Sys2Proof.Machine
end

section
/-! PROOF. What a response depends on (spec/10_state.md R23): O21. Two runs of one operation, side by side. -/

namespace Sys2Proof.Machine

/-! ## No hidden inputs (R23) -/

/-- Two answers, of states whose delivered responses are those of `s` and `s'`, are alike: a next state for a next state, with
one response more and the same one, or the same refusal. -/
structure AnsweredAlike (s s' : State) (a a' : Answer) : Prop where
  next : ∀ t, a = .next t → ∃ t' r, a' = .next t' ∧ t.outbox = s.outbox ++ [r] ∧ t'.outbox = s'.outbox ++ [r]
  refused : ∀ r, a = .refused r → a' = .refused r

section Alike

variable {s s' s₁ s₁' : State}

theorem finish_alike (h : s₁.outbox = s.outbox) (h' : s₁'.outbox = s'.outbox) (st : Status) (al : Option AllowedSet)
    (r : Result) : AnsweredAlike s s' (.next (finish st al r s₁)) (.next (finish st al r s₁')) where
  next t ht := by
    cases ht
    exact ⟨_, { status := st, allowed := al, result := r }, rfl, by simp [h], by simp [h']⟩
  refused r hr := nomatch hr

theorem respond_alike (r : Result) (h : s₁.outbox = s.outbox := by rfl) (h' : s₁'.outbox = s'.outbox := by rfl) :
    AnsweredAlike s s' (respond r s₁) (respond r s₁') :=
  finish_alike h h' _ _ _

theorem raise_alike (e : Failure) : AnsweredAlike s s' (raise e s) (raise e s') :=
  finish_alike rfl rfl _ _ _

theorem refused_alike (r : Refusal) : AnsweredAlike s s' (.refused r) (.refused r) :=
  ⟨fun _ h => (nomatch h), fun _ h => h⟩

theorem fault_alike (f : Fault) : AnsweredAlike s s' (.fault f) (.fault f) :=
  ⟨fun _ h => (nomatch h), fun _ h => h⟩

theorem respondWaveform_alike (wf : Waveform) (r : Result) :
    AnsweredAlike s s' (respondWaveform wf r s) (respondWaveform wf r s') :=
  respond_alike r

theorem transmit_alike {pre : Except Refusal (Timing × Waveform)} {fb : BitSeq} :
    AnsweredAlike s s' (transmit pre fb s) (transmit pre fb s') := by
  rcases pre with r | ⟨t, wf⟩
  · exact refused_alike r
  · exact respondWaveform_alike _ _

theorem admitConfig_congr (h : s.cfg = s'.cfg) : admitConfig s = admitConfig s' := by
  simp only [admitConfig, h]

theorem admitPreamble_congr (h : s.cfg = s'.cfg) : admitPreamble s = admitPreamble s' := by
  funext blf dr
  simp only [admitPreamble, admitConfig_congr h]

theorem admitFrameSync_congr (h : s.cfg = s'.cfg) : admitFrameSync s = admitFrameSync s' := by
  simp only [admitFrameSync, admitConfig_congr h]

theorem memRead_congr {m m' : Memory} (h : m.capture = m'.capture) : memRead m = memRead m' := by
  unfold memRead capLen
  rw [h]

theorem carveAt_congr {m m' : Memory} (h : m.capture = m'.capture) : carveAt m = carveAt m' := by
  unfold carveAt
  rw [memRead_congr h]

/-- The loop of EXTRACT reads the capture and no other memory (R130). -/
theorem carve_congr {m m' : Memory} (h : m.capture = m'.capture) (nT1 n : Nat) (ks : List Nat) :
    carve m nT1 n ks = carve m' nT1 n ks := by
  induction ks with
  | nil => rfl
  | cons k ks ih =>
    have hlen : capLen m = capLen m' := congrArg List.length h
    rw [carve, carve, carveAt_congr h, hlen, ih]

/-- An operation's answer is determined by `cfg`, the capture, the parameters and, for SYNC, the frame its operand names. -/
theorem exec_alike {i : Instr} (hcfg : s.cfg = s'.cfg) (hcap : s.mem.capture = s'.mem.capture)
    (hpar : s.params = s'.params) (hsync : ∀ arg, i = .sync arg → frameOf s.mem arg = frameOf s'.mem arg) :
    AnsweredAlike s s' (exec i s) (exec i s') := by
  cases i with
  | reset => exact respond_alike _
  | cfgWrite rate pwD =>
    simp only [exec, execCfgWrite]
    split
    · exact refused_alike _
    · exact respond_alike _
  | crc5 bits => exact respond_alike _
  | crc16 bits =>
    simp only [exec, execCrc16, hpar]
    exact respond_alike _
  | ebv value =>
    simp only [exec, execEbv, hpar]
    split
    · exact raise_alike _
    · exact respond_alike _
  | pieEncode bits =>
    simp only [exec, execPieEncode, admitConfig_congr hcfg]
    split
    · exact refused_alike _
    · exact respondWaveform_alike _ _
  | piePreamble blf dr =>
    simp only [exec, execPiePreamble, admitPreamble_congr hcfg]
    split
    · exact raise_alike _
    · split
      · exact refused_alike _
      · exact respondWaveform_alike _ _
  | pieFramesync =>
    simp only [exec, execPieFramesync, admitFrameSync_congr hcfg]
    split
    · exact refused_alike _
    · exact respondWaveform_alike _ _
  | query dr m trext sel session target q blf =>
    simp only [exec, execQuery, admitPreamble_congr hcfg]
    split
    · exact raise_alike _
    · exact transmit_alike
  | queryrep session =>
    simp only [exec, execQueryrep, admitFrameSync_congr hcfg]
    split
    · exact raise_alike _
    · exact transmit_alike
  | select target action membank pointer length mask truncate blf dr =>
    simp only [exec, execSelect, admitPreamble_congr hcfg, hpar]
    split
    · exact raise_alike _
    · exact transmit_alike
  | queryadjust session updn blf dr =>
    simp only [exec, execQueryadjust, admitPreamble_congr hcfg, hpar]
    split
    · exact raise_alike _
    · exact transmit_alike
  | extract nMaxGap nT1 nRn16 =>
    simp only [exec, execExtract, carve_congr hcap, hcap, hpar]
    split
    · exact refused_alike _
    · split
      · exact fault_alike _
      · exact respond_alike _
  | sync arg =>
    simp only [exec, execSync, hsync arg rfl, hpar]
    split
    · exact refused_alike _
    · split
      · exact raise_alike _
      · exact respond_alike _
  | queryFrame f crc => exact refused_alike _
  | queryrepFrame session => exact refused_alike _
  | selectFrame f crc => exact refused_alike _
  | queryadjustFrame session updn => exact refused_alike _
  | queryadjustTable7 updn => exact refused_alike _

end Alike

/-- Settles O21: the two runs are answered alike, operation by operation. -/
theorem responsesHaveNoHiddenInputs : Obligations.ResponsesHaveNoHiddenInputs := by
  intro i s s' hcfg hcap hpar hsync
  obtain ⟨hnext, hrefused⟩ := exec_alike hcfg hcap hpar hsync
  exact ⟨hnext, hrefused⟩

end Sys2Proof.Machine
end

section
/-! PROOF. The checks of spec/42_command_encoder.md R113 against the model's validation, and the refusals of a waveform operation (R26,
R82, R89): O44. -/

namespace Sys2Proof.Machine

/-! ## The checks of R113 and the model's own validation -/

theorem firstBad_cons_eq_none_iff {ok : Bool} {e : Failure} {rest : List (Bool × Failure)} :
    firstBad ((ok, e) :: rest) = none ↔ ok = true ∧ firstBad rest = none := by
  cases ok <;> simp [firstBad]

theorem divideRatioOf_eq_some_iff {v : Rat} {d : DivideRatio} : divideRatioOf v = some d ↔ v = drValue d := by
  constructor
  · intro h
    unfold divideRatioOf at h
    split_ifs at h with h8 h64
    · cases h; exact h8
    · cases h; exact h64
  · rintro rfl
    cases d with
    | dr8 => simp [divideRatioOf, drValue]
    | dr64_3 => norm_num [divideRatioOf, drValue]

theorem divideRatioOf_isSome (v : Rat) : (divideRatioOf v).isSome = decide (v ∈ [8, 64 / 3]) := by
  unfold divideRatioOf
  split_ifs <;> simp [*]

theorem mFieldOf_isSome (v : Int) : (mFieldOf v).isSome = decide (v ∈ [1, 2, 4, 8]) := by
  unfold mFieldOf
  split_ifs <;> simp [*]

theorem selOf_isSome (t : String) : (selOf t).isSome = decide (t ∈ ["all", "~sl", "sl"]) := by
  unfold selOf
  split_ifs <;> simp [*]

theorem sessionOf_isSome (t : String) : (sessionOf t).isSome = decide (t ∈ ["s0", "s1", "s2", "s3"]) := by
  unfold sessionOf
  split_ifs <;> simp [*]

theorem queryTargetOf_isSome (t : String) : (queryTargetOf t).isSome = decide (t ∈ ["A", "B"]) := by
  unfold queryTargetOf
  split_ifs <;> simp [*]

theorem selectTargetOf_isSome (t : String) :
    (selectTargetOf t).isSome = decide (t ∈ ["inv-s0", "inv-s1", "inv-s2", "inv-s3", "sl"]) := by
  unfold selectTargetOf
  split_ifs <;> simp [*]

theorem memBankOf_isSome (t : String) : (memBankOf t).isSome = decide (t ∈ ["FileType", "EPC", "TID", "File_0"]) := by
  unfold memBankOf
  split_ifs <;> simp [*]

theorem upDnOf_isSome (t : String) : (upDnOf t).isSome = decide (t ∈ ["up", "keep", "down"]) := by
  unfold upDnOf
  split_ifs <;> simp [*]

/-- A value in a legal set has a field value, where the set is the one the step from carrier to field admits. -/
theorem exists_of_isSome_eq {α : Type} {o : Option α} {p : Prop} [Decidable p] (h : o.isSome = decide p) (hp : p) :
    ∃ v, o = some v :=
  Option.isSome_iff_exists.1 (h.trans (decide_eq_true hp))

theorem rangeOf_eq_some_iff {hi n : Nat} {v : Int} : rangeOf hi v = some n ↔ 0 ≤ v ∧ v ≤ hi ∧ v.toNat = n := by
  simp [rangeOf, and_assoc]

theorem bitlen_le_iff {v w : Nat} : bitlen v ≤ w ↔ v < 2 ^ w := by
  unfold bitlen
  split
  · simp [*]
  · rw [Nat.succ_le_iff, Nat.log2_lt ‹_›]

theorem pointerFits_iff {wPtr : Option Nat} {v : Nat} : pointerFits wPtr v = true ↔ ∀ w ∈ wPtr, v < 2 ^ w := by
  cases wPtr <;> simp [pointerFits, bitlen_le_iff]

/-- Row 11 of R113: the bound on the pointer is the one on its number of bits. -/
theorem pointerOf_of_legal {wPtr : Option Nat} {v : Int} (h : 0 ≤ v ∧ ∀ w ∈ wPtr, v < 2 ^ w) :
    pointerOf wPtr v = some v.toNat := by
  obtain ⟨hv, hw⟩ := h
  lift v to Nat using hv
  have hfit : pointerFits wPtr v = true := pointerFits_iff.2 fun w h => by exact_mod_cast hw w h
  simp [pointerOf, hfit]

theorem validateQuery_of_legal {dr : Rat} {m : Int} {sel session target : String} {q : Int} (trext : Bool)
    (h : firstBad (queryChecks dr m sel session target q) = none) :
    ∃ f, validateQuery dr m trext sel session target q = .ok f ∧ drValue f.dr = dr := by
  simp only [queryChecks, firstBad_cons_eq_none_iff, ← divideRatioOf_isSome, ← mFieldOf_isSome, ← selOf_isSome,
    ← sessionOf_isSome, ← queryTargetOf_isSome, Option.isSome_iff_exists, decide_eq_true_eq] at h
  obtain ⟨⟨d, hd⟩, ⟨m', hm⟩, ⟨sel', hsel⟩, ⟨ses, hses⟩, ⟨tgt, htgt⟩, ⟨hq, hq'⟩, -⟩ := h
  have hqv := rangeOf_eq_some_iff (hi := 15).2 ⟨hq, hq', rfl⟩
  refine ⟨⟨d, m', trext, sel', ses, tgt, BitVec.ofNat 4 q.toNat⟩, ?_, (divideRatioOf_eq_some_iff.1 hd).symm⟩
  simp only [validateQuery, hd, hm, hsel, hses, htgt, hqv, need]
  rfl

theorem validateSelect_of_legal {wPtr : Option Nat} {target : String} {action : Int} {membank : String}
    {pointer length : Int} {mask : BitSeq} {dr : Rat} (truncate : Bool)
    (h : firstBad (selectChecks wPtr target action membank pointer length mask dr) = none) :
    ∃ f d, validateSelect wPtr target action membank pointer length mask truncate dr = .ok (f, d) ∧ drValue d = dr := by
  simp only [selectChecks, firstBad_cons_eq_none_iff, ← divideRatioOf_isSome, ← selectTargetOf_isSome,
    ← memBankOf_isSome, Option.isSome_iff_exists, decide_eq_true_eq] at h
  obtain ⟨⟨tgt, htgt⟩, ⟨ha, ha'⟩, ⟨bank, hbank⟩, hptr, ⟨hl, hl'⟩, hmask, ⟨d, hd⟩, -⟩ := h
  have hav := rangeOf_eq_some_iff (hi := 7).2 ⟨ha, ha', rfl⟩
  have hlv := rangeOf_eq_some_iff (hi := 255).2 ⟨hl, hl', rfl⟩
  have hmv : needMask length.toNat mask = .ok mask := if_pos (by omega)
  refine ⟨⟨tgt, BitVec.ofNat 3 action.toNat, bank, pointer.toNat, mask, truncate⟩, d, ?_,
    (divideRatioOf_eq_some_iff.1 hd).symm⟩
  simp only [validateSelect, htgt, hav, hbank, pointerOf_of_legal hptr, hlv, need, hd, bind, Except.bind, hmv]

theorem validateAdjustSession_of_legal {session : Option String}
    (h : ∃ t ∈ ["s0", "s1", "s2", "s3"], session = some t) :
    ∃ v, validateAdjustSession .gen2_9 session = .ok v := by
  obtain ⟨t, ht, rfl⟩ := h
  obtain ⟨v, hv⟩ := exists_of_isSome_eq (sessionOf_isSome t) ht
  exact ⟨some v, by simp [validateAdjustSession, hv, need, Except.map]⟩

theorem validateQueryAdjust_of_legal {layout : QadjLayout} {session : Option String} {updn : String} {dr : Rat}
    (h : firstBad (queryAdjustChecks layout session updn dr) = none) :
    ∃ f d, validateQueryAdjust layout session updn dr = .ok (f, d) ∧ drValue d = dr := by
  obtain ⟨⟨ses, hses⟩, ⟨u, hu⟩, ⟨d, hd⟩, -⟩ : (∃ v, validateAdjustSession layout session = .ok v) ∧
      (∃ u, upDnOf updn = some u) ∧ (∃ d, divideRatioOf dr = some d) ∧ firstBad [] = none := by
    simp only [queryAdjustChecks, ← upDnOf_isSome, ← divideRatioOf_isSome] at h
    cases layout with
    | gen2_9 =>
      simp only [List.singleton_append, firstBad_cons_eq_none_iff, Option.isSome_iff_exists, decide_eq_true_eq] at h
      exact ⟨validateAdjustSession_of_legal h.1, h.2⟩
    | table_7 =>
      simp only [List.nil_append, firstBad_cons_eq_none_iff, Option.isSome_iff_exists] at h
      exact ⟨⟨none, rfl⟩, h⟩
  refine ⟨⟨ses, u⟩, d, ?_, (divideRatioOf_eq_some_iff.1 hd).symm⟩
  simp only [validateQueryAdjust, hses, hu, hd, need]
  rfl

/-! ## Admission (R26, R82, R89) -/

theorem admitConfig_of_unset {s : State} (h : s.cfg.rate = none) : admitConfig s = .error .rateUnset := by
  simp [admitConfig, h]

theorem admitConfig_of_nonpos {s : State} {rate : Rat} (h : s.cfg.rate = some rate) (hn : rate ≤ 0 ∨ s.cfg.pwD ≤ 0) :
    admitConfig s = .error .configNotPositive := by
  simp [admitConfig, h, hn]

theorem timingOf_nPw (rate pwD : Rat) : (timingOf rate pwD).nPw = ⌊pwD * rate / 1000000⌋.toNat := rfl

theorem trcalCount_eq (rate blf : Rat) (d : DivideRatio) : trcalCount rate blf d = ⌊drValue d * rate / blf⌋.toNat := rfl

theorem admitConfig_of_short {s : State} {rate : Rat} (h : s.cfg.rate = some rate) (hr : 0 < rate) (hp : 0 < s.cfg.pwD)
    (hn : ⌊s.cfg.pwD * rate / 1000000⌋ < 1) : admitConfig s = .error .pulseShorterThanSample := by
  have hpw : (timingOf rate s.cfg.pwD).nPw = 0 := by rw [timingOf_nPw]; omega
  simp [admitConfig, h, hr.not_ge, hp.not_ge, hpw]

theorem ConfigAdmitted.admitConfig_eq {s : State} {rate : Rat} (h : ConfigAdmitted s rate) :
    admitConfig s = .ok (timingOf rate s.cfg.pwD) := by
  obtain ⟨hset, hr, hp, hpulse⟩ := h
  have hpw : (timingOf rate s.cfg.pwD).nPw ≠ 0 := by rw [timingOf_nPw]; omega
  simp [admitConfig, hset, hr.not_ge, hp.not_ge, hpw]

theorem admitPreamble_of_config_error {s : State} {r : Refusal} (h : admitConfig s = .error r) (blf : Rat)
    (d : DivideRatio) : admitPreamble s blf d = .error r := by
  rw [admitPreamble, h]
  rfl

theorem admitPreamble_of_trcal_error {s : State} {t : Timing} {r : Refusal} {blf : Rat} {d : DivideRatio}
    (h : admitConfig s = .ok t) (ht : admitTrcal t blf d = .error r) : admitPreamble s blf d = .error r := by
  rw [admitPreamble, h]
  simp only [bind, Except.bind, ht]

theorem admitTrcal_of_nonpos {t : Timing} {blf : Rat} (d : DivideRatio) (h : blf ≤ 0) :
    admitTrcal t blf d = .error .blfNotPositive := by
  simp [admitTrcal, h]

theorem admitTrcal_of_short {t : Timing} {blf : Rat} {d : DivideRatio} (h : 0 < blf)
    (hn : trcalCount t.rate blf d < t.nPw) : admitTrcal t blf d = .error .trcalShorterThanPulse := by
  simp [admitTrcal, h.not_ge, hn]

theorem transmit_of_error {pre : Except Refusal (Timing × Waveform)} {r : Refusal} (h : pre = .error r) (fb : BitSeq)
    (s : State) : transmit pre fb s = .refused r := by
  subst h
  rfl

/-! ## Waveform operations off their conditions -/

/-- A legal waveform operation without a preamble meets the configuration's refusal (R26, R82). -/
theorem LegalWaveform.refused_of_config {i : Instr} {s : State} {r : Refusal} (h : LegalWaveform s.params i none)
    (hr : admitConfig s = .error r) : exec i s = .refused r := by
  have hsync : admitFrameSync s = .error r := by rw [admitFrameSync, hr]; rfl
  cases h with
  | pieEncode bits => simp only [exec, execPieEncode, hr]
  | pieFramesync => simp only [exec, execPieFramesync, hsync]
  | queryrep session hs =>
    obtain ⟨v, hv⟩ := exists_of_isSome_eq (sessionOf_isSome session) hs
    simp only [exec, execQueryrep, hv, need, transmit_of_error hsync]

/-- A legal waveform operation with a preamble passes its validation and meets the preamble's refusal (R89, R107). -/
theorem LegalWaveform.refused_of_preamble {i : Instr} {s : State} {blf dr : Rat}
    (h : LegalWaveform s.params i (some (blf, dr))) :
    ∃ d, drValue d = dr ∧ ∀ r, admitPreamble s blf d = .error r → exec i s = .refused r := by
  cases h with
  | piePreamble _ _ hdr =>
    obtain ⟨d, hd⟩ := exists_of_isSome_eq (divideRatioOf_isSome dr) hdr
    exact ⟨d, (divideRatioOf_eq_some_iff.1 hd).symm, fun r hr => by simp only [exec, execPiePreamble, hd, need, hr]⟩
  | query _ m trext sel session target q _ hc =>
    obtain ⟨f, hf, hd⟩ := validateQuery_of_legal trext hc
    exact ⟨f.dr, hd, fun r hr => by simp only [exec, execQuery, hf, transmit_of_error hr]⟩
  | select target action membank pointer length mask truncate _ _ hc =>
    obtain ⟨f, d, hf, hd⟩ := validateSelect_of_legal truncate hc
    exact ⟨d, hd, fun r hr => by simp only [exec, execSelect, hf, transmit_of_error hr]⟩
  | queryadjust session updn _ _ hc =>
    obtain ⟨f, d, hf, hd⟩ := validateQueryAdjust_of_legal hc
    exact ⟨d, hd, fun r hr => by simp only [exec, execQueryadjust, hf, transmit_of_error hr]⟩

/-- Every legal waveform operation meets the configuration's refusal. -/
theorem LegalWaveform.refused_off_config {i : Instr} {s : State} {pre : Option (Rat × Rat)} {r : Refusal}
    (h : LegalWaveform s.params i pre) (hr : admitConfig s = .error r) : exec i s = .refused r := by
  rcases pre with _ | ⟨blf, dr⟩
  · exact h.refused_of_config hr
  · obtain ⟨d, -, hd⟩ := h.refused_of_preamble
    exact hd r (admitPreamble_of_config_error hr blf d)

/-- Settles O44: past its validation, an operation is refused by the first condition of R26, R82 or R89 that fails. -/
theorem waveformsAreRefusedOffTheirConditions : Obligations.WaveformsAreRefusedOffTheirConditions := by
  intro i s pre h
  refine ⟨fun hset => ?_, fun rate hset hn => ?_, fun rate hset hr hp hn => ?_, ?_, ?_⟩
  · exact h.refused_off_config (admitConfig_of_unset hset)
  · exact h.refused_off_config (admitConfig_of_nonpos hset hn)
  · exact h.refused_off_config (admitConfig_of_short hset hr hp hn)
  · rintro rate blf dr hc rfl hblf
    obtain ⟨d, -, hd⟩ := h.refused_of_preamble
    exact hd _ (admitPreamble_of_trcal_error hc.admitConfig_eq (admitTrcal_of_nonpos d hblf))
  · rintro rate blf dr hc rfl hblf hlt
    obtain ⟨d, rfl, hd⟩ := h.refused_of_preamble
    have hshort : trcalCount rate blf d < (timingOf rate s.cfg.pwD).nPw := by
      have hpulse := hc.pulse
      rw [trcalCount_eq, timingOf_nPw]
      omega
    exact hd _ (admitPreamble_of_trcal_error hc.admitConfig_eq (admitTrcal_of_short hblf hshort))

end Sys2Proof.Machine
end

section
/-! PROOF. The memories (spec/20_memory.md): what an operation writes in them, that EXTRACT reads inside the capture, and what the
host's moves put there: O17 to O20, O57 to O59. -/

namespace Sys2Proof.Machine

/-! ## What an operation writes (R31, R36, R38) -/

/-- The capture is written by no end of an operation. -/
theorem exec_capture {i : Instr} {s t : State} (h : exec i s = .next t) : t.mem.capture = s.mem.capture := by
  cases exec_next_cases h with
  | result r _ ht => simp [ht]
  | error e _ ht => simp [ht]
  | waveform wf r _ ht => simp [ht]
  | reset _ ht => simp [ht]
  | cfg rate pwD _ _ _ ht => simp [ht]
  | extract _ _ _ ws _ _ ht => simp [ht]

/-- Settles O17: `cap_len` and every sample are read off the capture, which an operation leaves as it was. -/
theorem noOperationWritesTheCapture : Obligations.NoOperationWritesTheCapture := by
  intro i s t h
  have hc := exec_capture h
  exact ⟨by rw [capLen, capLen, hc], fun k => by rw [captureAt, captureAt, hc]⟩

/-- Settles O18: of the ways an operation ends, RESET's and EXTRACT's alone touch the frame store. -/
theorem onlyExtractAndResetWriteTheFrameStore : Obligations.OnlyExtractAndResetWriteTheFrameStore := by
  intro i s t h hne
  cases exec_next_cases h with
  | result r _ ht => simp [ht] at hne
  | error e _ ht => simp [ht] at hne
  | waveform wf r _ ht => simp [ht] at hne
  | reset hi _ => exact .inl hi
  | cfg rate pwD _ _ _ ht => simp [ht] at hne
  | extract a b c ws hi _ _ => exact .inr ⟨a, b, c, hi⟩

/-- Settles O19: of the ways an operation ends, RESET's empties the buffer, a waveform's fills it with what it delivers, and the
others leave it. -/
theorem txBufferHoldsTheDeliveredWaveform : Obligations.TxBufferHoldsTheDeliveredWaveform := by
  intro i s t h hne
  cases exec_next_cases h with
  | result r _ ht => simp [ht] at hne
  | error e _ ht => simp [ht] at hne
  | waveform wf r hr ht =>
    subst ht
    obtain rfl | ⟨fb, rfl⟩ := hr
    · exact .inr ⟨rfl, .inl rfl⟩
    · exact .inr ⟨rfl, .inr ⟨fb, rfl⟩⟩
  | reset hi ht => exact .inl ⟨hi, by simp [ht]⟩
  | cfg rate pwD _ _ _ ht => simp [ht] at hne
  | extract _ _ _ ws _ _ ht => simp [ht] at hne

/-! ## EXTRACT reads inside the capture (R34, R205) -/

theorem dropped_eq_false_iff {len n start : Nat} : dropped len n start = false ↔ start + n < len ∧ nDc ≤ start := by
  simp [dropped]

/-- Both windows of a kept marker lie inside the capture (R135). -/
theorem carveAt_of_kept {m : Memory} {n start : Nat} (h : dropped (capLen m) n start = false) :
    ∃ w, carveAt m n start = .ok w := by
  obtain ⟨hend, hdc⟩ := dropped_eq_false_iff.1 h
  have hframe := memRead_isSome (m := m) (a := start) (n := n) hend.le
  have hwin := memRead_isSome (m := m) (a := start - nDc) (n := nDc) (by omega)
  simp [carveAt, hframe, hwin]

theorem carve_succeeds (m : Memory) (nT1 n : Nat) (ks : List Nat) : ∃ ws, carve m nT1 n ks = .ok ws := by
  induction ks with
  | nil => exact ⟨[], rfl⟩
  | cons k ks ih =>
    obtain ⟨ws, hws⟩ := ih
    rw [carve]
    split
    · exact ⟨ws, hws⟩
    · rename_i hkept
      obtain ⟨w, hw⟩ := carveAt_of_kept (Bool.eq_false_iff.2 hkept)
      exact ⟨w :: ws, by simp [hw, hws, Except.map]⟩

theorem transmit_ne_fault {pre : Except Refusal (Timing × Waveform)} {fb : BitSeq} {s : State} {f : Fault} :
    transmit pre fb s ≠ .fault f := by
  rcases pre with r | ⟨t, wf⟩ <;> exact nofun

/-- Only the loop of EXTRACT has a fault to hand on. -/
theorem exec_fault_cases {i : Instr} {s : State} {f : Fault} (h : exec i s = .fault f) :
    ∃ nT1 n ks, carve s.mem nT1 n ks = .error f := by
  cases i with
  | extract nMaxGap nT1 nRn16 =>
    simp only [exec, execExtract] at h
    split at h
    · cases h
    · split at h
      · cases h
        exact ⟨_, _, _, ‹_›⟩
      · cases h
  | cfgWrite rate pwD =>
    simp only [exec, execCfgWrite] at h
    split at h <;> cases h
  | ebv value =>
    simp only [exec, execEbv] at h
    split at h <;> cases h
  | pieEncode bits =>
    simp only [exec, execPieEncode] at h
    split at h <;> cases h
  | piePreamble blf dr =>
    simp only [exec, execPiePreamble] at h
    split at h
    · cases h
    · split at h <;> cases h
  | pieFramesync =>
    simp only [exec, execPieFramesync] at h
    split at h <;> cases h
  | query dr m trext sel session target q blf =>
    simp only [exec, execQuery] at h
    split at h
    · cases h
    · exact absurd h transmit_ne_fault
  | queryrep session =>
    simp only [exec, execQueryrep] at h
    split at h
    · cases h
    · exact absurd h transmit_ne_fault
  | select target action membank pointer length mask truncate blf dr =>
    simp only [exec, execSelect] at h
    split at h
    · cases h
    · exact absurd h transmit_ne_fault
  | queryadjust session updn blf dr =>
    simp only [exec, execQueryadjust] at h
    split at h
    · cases h
    · exact absurd h transmit_ne_fault
  | sync frame =>
    simp only [exec, execSync] at h
    split at h
    · cases h
    · split at h <;> cases h
  | reset | crc5 _ | crc16 _ | queryFrame _ _ | queryrepFrame _ | selectFrame _ _ | queryadjustFrame _ _
  | queryadjustTable7 _ => cases h

/-- Settles O20: the drop rule of R135 keeps every window inside the capture, so EXTRACT's loop succeeds. -/
theorem noOperationFaults : Obligations.NoOperationFaults := by
  intro i s f h
  obtain ⟨nT1, n, ks, he⟩ := exec_fault_cases h
  obtain ⟨ws, hws⟩ := carve_succeeds s.mem nT1 n ks
  cases hws.symm.trans he

/-! ## A memory move of the host (R38, R187, R192) -/

/-- A step that is not busy takes the memory move the host made first. -/
theorem step_of_move {s : State} {m : HostMove} {rest : List HostInput} (hb : s.busy = false)
    (hin : s.inbox = .move m :: rest) : step s = hostMove m { s with inbox := rest } := by
  simp [step, fetch, takeInput, hin, hb]

/-- Settles O59: the move is taken, and a list entry is set in place. -/
theorem hostChangesOneFrameOnly : Obligations.HostChangesOneFrameOnly := by
  intro s k old new rest hb hin hold hlen
  have hk : k < s.mem.frames.length := (List.getElem?_eq_some_iff.1 hold).1
  refine ⟨?_, List.length_set, setFrame_same hk, fun j hj => setFrame_other hj⟩
  rw [step_of_move hb hin]
  simp [hostMove, hostWriteFrame, hold, hlen, setFrame]

/-! ## The value of a 32-bit float (R33) -/

/-- The magnitude as IEEE 754 has it: subnormals for exponent 0, else a leading 1 before the fraction. -/
theorem binary32Magnitude_eq (exponent fraction : ℕ) :
    binary32Magnitude exponent fraction =
      if exponent = 0 then (fraction : ℚ) * (2 : ℚ) ^ (-149 : ℤ)
      else (1 + (fraction : ℚ) / 2 ^ 23) * (2 : ℚ) ^ ((exponent : ℤ) - 127) := by
  have hscale : (1 + (fraction : ℚ) / 2 ^ 23) * (2 : ℚ) ^ ((exponent : ℤ) - 127) =
      (2 ^ 23 + fraction) * (2 : ℚ) ^ ((exponent : ℤ) - 150) := by
    have hsplit : (exponent : ℤ) - 127 = 23 + ((exponent : ℤ) - 150) := by ring
    rw [hsplit, zpow_add₀ two_ne_zero]
    norm_num
    ring
  unfold binary32Magnitude
  split_ifs with h0 hlt
  · rw [Rat.mkRat_eq_div]
    norm_num [zpow_neg, div_eq_mul_inv]
  · rw [hscale, Rat.mkRat_eq_div, ← neg_sub, ← Nat.cast_ofNat (R := ℤ), ← Nat.cast_sub hlt.le, zpow_neg, zpow_natCast]
    push_cast
    rfl
  · rw [hscale, ← Nat.cast_ofNat (R := ℤ), ← Nat.cast_sub (not_lt.1 hlt), zpow_natCast]
    push_cast
    rfl

/-- Settles O58: the three fields are read back off the word, and the sign bit negates the magnitude. -/
theorem binary32HasItsValue : Obligations.Binary32HasItsValue := by
  intro sign exponent fraction hs he hf
  have hsign : (sign * 2 ^ 31 + exponent * 2 ^ 23 + fraction) / 2 ^ 31 % 2 = sign := by omega
  have hexp : (sign * 2 ^ 31 + exponent * 2 ^ 23 + fraction) / 2 ^ 23 % 2 ^ 8 = exponent := by omega
  have hfrac : (sign * 2 ^ 31 + exponent * 2 ^ 23 + fraction) % 2 ^ 23 = fraction := by omega
  simp only [binary32, hsign, hexp, hfrac, binary32Magnitude_eq]
  obtain rfl | rfl : sign = 0 ∨ sign = 1 := by omega
  · rw [pow_zero, one_mul, if_neg zero_ne_one]
  · rw [pow_one, neg_one_mul, if_pos rfl]

/-! ## The capture file (R32, R33) -/

/-- The 32-bit number a capture file holds in the four bytes from `j` on. -/
def fileWord (file : List (BitVec 8)) (j : ℕ) : ℕ :=
  littleEndian32 (file.getD j 0) (file.getD (j + 1) 0) (file.getD (j + 2) 0) (file.getD (j + 3) 0)

/-- Sample `k` of a capture file, where its floats are numbers. -/
def fileSampleAt (file : List (BitVec 8)) (k : ℕ) : Except Refusal IQ :=
  fileSample (fileWord file (8 * k)) (fileWord file (8 * k + 4))

theorem fileSample_eq_ok_iff {i q : ℕ} {z : IQ} :
    fileSample i q = .ok z ↔ binary32 i = some z.re ∧ binary32 q = some z.im := by
  obtain ⟨re, im⟩ := z
  unfold fileSample
  split <;> simp_all

theorem exists_fileSample {i q : ℕ} (hi : (binary32 i).isSome) (hq : (binary32 q).isSome) :
    ∃ z, fileSample i q = .ok z := by
  obtain ⟨re, hre⟩ := Option.isSome_iff_exists.1 hi
  obtain ⟨im, him⟩ := Option.isSome_iff_exists.1 hq
  exact ⟨⟨re, im⟩, fileSample_eq_ok_iff.2 ⟨hre, him⟩⟩

theorem fileSample_of_not_finite {i q : ℕ} (h : binary32 i = none ∨ binary32 q = none) :
    fileSample i q = .error .captureNotFinite := by
  obtain h | h := h <;> simp [fileSample, h]

theorem fileSample_error {i q : ℕ} {r : Refusal} (h : fileSample i q = .error r) : r = .captureNotFinite := by
  unfold fileSample at h
  split at h <;> cases h
  rfl

theorem fileSampleAt_drop (file : List (BitVec 8)) (k : ℕ) :
    fileSampleAt (file.drop 8) k = fileSampleAt file (k + 1) := by
  have hword : ∀ j, fileWord (file.drop 8) j = fileWord file (8 + j) := fun j => by simp [fileWord, add_assoc]
  rw [fileSampleAt, fileSampleAt, hword, hword, ← add_assoc, Nat.mul_succ, add_comm 8]

/-- Eight bytes are one sample, and the rest of the file the others. -/
theorem fileSamples_step {file : List (BitVec 8)} (h : 8 ≤ file.length) :
    fileSamples file = (fileSampleAt file 0).bind fun z => (fileSamples (file.drop 8)).map (z :: ·) :=
  match file, h with
  | _ :: _ :: _ :: _ :: _ :: _ :: _ :: _ :: _, _ => rfl

/-- A computation followed by more that ends well has ended well itself. -/
theorem bind_eq_ok {ε α β : Type} {x : Except ε α} {k : α → Except ε β} {b : β} (h : (x >>= k) = .ok b) :
    ∃ a, x = .ok a ∧ k a = .ok b := by
  cases x with
  | error e => cases h
  | ok a => exact ⟨a, rfl, h⟩

/-- A file that becomes samples has eight bytes for each. -/
theorem length_of_fileSamples {file : List (BitVec 8)} {zs : Samples} (h : fileSamples file = .ok zs) :
    file.length = 8 * zs.length := by
  fun_induction fileSamples file generalizing zs with
  | case1 => cases h; rfl
  | case2 a0 a1 a2 a3 b0 b1 b2 b3 rest ih =>
    obtain ⟨z, -, h⟩ := bind_eq_ok h
    obtain ⟨zs', hrest, h⟩ := bind_eq_ok h
    cases h
    simp [ih hrest, Nat.mul_succ]
  | case3 => cases h

/-- A whole file whose floats are all numbers becomes its samples. -/
theorem fileSamples_of_finite {file : List (BitVec 8)} {n : ℕ} (hlen : file.length = 8 * n)
    (hfin : ∀ k < n, ∃ z, fileSampleAt file k = .ok z) :
    ∃ zs, fileSamples file = .ok zs ∧ zs.length = n ∧ ∀ k < n, ∃ z, zs[k]? = some z ∧ fileSampleAt file k = .ok z := by
  induction n generalizing file with
  | zero =>
    obtain rfl := List.length_eq_zero_iff.1 hlen
    exact ⟨[], rfl, rfl, by simp⟩
  | succ n ih =>
    obtain ⟨z, hz⟩ := hfin 0 n.succ_pos
    obtain ⟨zs, hzs, hn, hat⟩ := ih (file := file.drop 8) (by simp; omega) fun k hk => by
      simpa [fileSampleAt_drop] using hfin (k + 1) (by omega)
    refine ⟨z :: zs, by simp [fileSamples_step (show 8 ≤ file.length by omega), hz, hzs, Except.bind, Except.map],
      by simp [hn], ?_⟩
    rintro (_ | k) hk
    · exact ⟨z, rfl, hz⟩
    · simpa [fileSampleAt_drop] using hat k (by omega)

/-- A whole file with a NaN or an infinity is refused for it, whatever follows. -/
theorem fileSamples_of_not_finite {file : List (BitVec 8)} {n k : ℕ} (hlen : file.length = 8 * n) (hk : k < n)
    (hbad : fileSampleAt file k = .error .captureNotFinite) : fileSamples file = .error .captureNotFinite := by
  induction n generalizing file k with
  | zero => omega
  | succ n ih =>
    rw [fileSamples_step (by omega)]
    cases hz : fileSampleAt file 0 with
    | error r => rw [fileSample_error hz]; rfl
    | ok z =>
      cases k with
      | zero => cases hz.symm.trans hbad
      | succ k =>
        rw [← fileSampleAt_drop] at hbad
        have htail := ih (by simp; omega) (by omega) hbad
        simp [Except.bind, htail, Except.map]

/-! ## Loading the capture (R31, R187) -/

theorem captureFits_iff {capMax : Option Nat} {n : ℕ} : captureFits capMax n = true ↔ ∀ c ∈ capMax, n ≤ c := by
  cases capMax <;> simp [captureFits]

theorem hostLoadSamples_of_fits {zs : Samples} {s : State} (h : ∀ c ∈ s.params.capMax, zs.length ≤ c) :
    hostLoadSamples zs s = .next (loadCapture zs s) :=
  if_pos (captureFits_iff.2 h)

theorem hostLoadSamples_of_too_long {zs : Samples} {s : State} (h : ∃ c ∈ s.params.capMax, c < zs.length) :
    hostLoadSamples zs s = .refused .captureTooLong := by
  obtain ⟨c, hc, hlt⟩ := h
  exact if_neg fun hfit => hlt.not_ge (captureFits_iff.1 hfit c hc)

theorem hostLoadFile_of_ok {file : List (BitVec 8)} {zs : Samples} {s : State} (h : fileSamples file = .ok zs) :
    hostLoadFile file s = hostLoadSamples zs s := by
  rw [hostLoadFile, h]

theorem hostLoadFile_of_error {file : List (BitVec 8)} {r : Refusal} {s : State} (h : fileSamples file = .error r) :
    hostLoadFile file s = .refused r := by
  rw [hostLoadFile, h]

/-- Settles O57: the move is taken, the file is read sample by sample, and the capture is replaced where it fits. -/
theorem captureFileBecomesSamples : Obligations.CaptureFileBecomesSamples := by
  refine ⟨fun s file rest hb hin => ?_, fun s samples rest hb hin => ?_⟩
  · have hstep : step s = hostLoadFile file { s with inbox := rest } := step_of_move hb hin
    rw [hstep]
    have hsome : ∀ n, (∀ k < n, (binary32 (fileWord file (8 * k))).isSome ∧ (binary32 (fileWord file (8 * k + 4))).isSome) →
        ∀ k < n, ∃ z, fileSampleAt file k = .ok z :=
      fun n hfin k hk => exists_fileSample (hfin k hk).1 (hfin k hk).2
    refine ⟨fun n hlen hfin hfit => ?_, fun hlen => ?_, fun n hlen hbad => ?_, fun n hlen hfin hlong => ?_⟩
    · obtain ⟨zs, hzs, hn, hat⟩ := fileSamples_of_finite hlen (hsome n hfin)
      refine ⟨_, (hostLoadFile_of_ok hzs).trans (hostLoadSamples_of_fits (hn ▸ hfit)), rfl, hn, fun k hk => ?_⟩
      obtain ⟨z, hz, hk⟩ := hat k hk
      exact ⟨z, hz, fileSample_eq_ok_iff.1 hk⟩
    · cases hf : fileSamples file with
      | ok zs => exact absurd (length_of_fileSamples hf) (by omega)
      | error r => exact ⟨r, hostLoadFile_of_error hf⟩
    · obtain ⟨k, hk, hbad⟩ := hbad
      exact hostLoadFile_of_error (fileSamples_of_not_finite hlen hk (fileSample_of_not_finite hbad))
    · obtain ⟨zs, hzs, hn, -⟩ := fileSamples_of_finite hlen (hsome n hfin)
      exact (hostLoadFile_of_ok hzs).trans (hostLoadSamples_of_too_long (hn ▸ hlong))
  · have hstep : step s = hostLoadSamples samples { s with inbox := rest } := step_of_move hb hin
    rw [hstep]
    exact ⟨fun hfit => hostLoadSamples_of_fits hfit, fun hlong => hostLoadSamples_of_too_long hlong⟩

end Sys2Proof.Machine
end

section
/-! PROOF. Numbers as bit sequences and the Extensible Bit Vector (spec/30_encoding.md R53, R54): O6. Reading a field back after
writing it, for bit fields of fixed width and for EBV blocks. -/

namespace Sys2Proof.Machine

/-! ## Bit fields of fixed width (R53) -/

theorem foldl_double_add (S : BitSeq) (a : ℕ) :
    S.foldl (fun v b => 2 * v + b.toNat) a = 2 ^ S.length * a + uval S := by
  induction S generalizing a with
  | nil => simp [uval]
  | cons b S ih =>
    rw [uval, List.foldl_cons, List.foldl_cons, ih, ih (2 * 0 + _), List.length_cons, pow_succ]
    ring

theorem uval_cons (b : Bit) (S : BitSeq) : uval (b :: S) = 2 ^ S.length * b.toNat + uval S := by
  rw [uval, List.foldl_cons, foldl_double_add, mul_zero, zero_add]

theorem uval_lt (S : BitSeq) : uval S < 2 ^ S.length := by
  induction S with
  | nil => exact Nat.one_pos
  | cons b S ih =>
    have hb : 2 ^ S.length * b.toNat ≤ 2 ^ S.length * 1 := Nat.mul_le_mul_left _ b.toNat_le
    rw [uval_cons, List.length_cons, pow_succ]
    omega

/-- A field of `n` bits holds the number modulo `2^n`. -/
theorem uval_ubits (n v : ℕ) : uval (ubits n v) = v % 2 ^ n := by
  induction n with
  | zero => simp [ubits, uval, Nat.mod_one]
  | succ n ih => rw [ubits, uval_cons, ubits_length, ih, Nat.toNat_testBit, Nat.mod_pow_succ, add_comm]

/-- The `n` low bits do not see what stands above them. -/
theorem ubits_mul_add {n k v : ℕ} (c : ℕ) (hn : n ≤ k) (hv : v < 2 ^ k) : ubits n (2 ^ k * c + v) = ubits n v := by
  induction n with
  | zero => rfl
  | succ n ih => rw [ubits, ubits, ih (Nat.le_of_succ_le hn), Nat.testBit_two_pow_mul_add _ hv, if_pos (Nat.lt_of_succ_le hn)]

/-- Every bit sequence is the field of its own number. -/
theorem ubits_uval (S : BitSeq) : ubits S.length (uval S) = S := by
  induction S with
  | nil => rfl
  | cons b S ih =>
    have hbit : (2 ^ S.length * b.toNat + uval S).testBit S.length = b := by
      rw [Nat.testBit_two_pow_mul_add _ (uval_lt S)]
      cases b <;> simp
    rw [uval_cons, List.length_cons, ubits, hbit, ubits_mul_add _ le_rfl (uval_lt S), ih]

/-! ## EBV blocks (R54, R58) -/

theorem nblk_pos (v : ℕ) : 0 < nblk v :=
  Nat.lt_of_lt_of_le Nat.one_pos (Nat.le_max_left ..)

/-- A value needs at most `k` blocks exactly when `7k` bits hold it. -/
theorem nblk_le_iff {v k : ℕ} (hk : 0 < k) : nblk v ≤ k ↔ v < 2 ^ (7 * k) := by
  rw [← bitlen_le_iff, nblk]
  omega

theorem lt_two_pow_nblk (v : ℕ) : v < 2 ^ (7 * nblk v) :=
  (nblk_le_iff (nblk_pos v)).1 le_rfl

theorem ebvBlocks_length {k : ℕ} {B : BitSeq} (h : B.length = 7 * k) : (ebvBlocks k B).length = 8 * k := by
  induction k generalizing B with
  | zero => rfl
  | succ k ih =>
    have hrest := ih (B := B.drop 7) (by simp; omega)
    simp [ebvBlocks, hrest]
    omega

theorem ebv_length (v : ℕ) : (ebv v).length = 8 * nblk v :=
  ebvBlocks_length (ubits_length _ _)

/-- One block: seven bits behind their flag, which says whether another block follows. -/
theorem ebvRead_block {G : BitSeq} (hG : G.length = 7) (fuel : ℕ) (e : Bit) (S : BitSeq) :
    ebvRead (fuel + 1) (e :: (G ++ S)) =
      if e then (ebvRead fuel S).map (fun r => (G ++ r.1, r.2)) else some (G, S) := by
  simp [ebvRead, hG, List.take_left', List.drop_left']

/-- Reading gives back the joined groups and stops behind the block whose flag is 0. -/
theorem ebvRead_ebvBlocks {k fuel : ℕ} {B : BitSeq} (rest : BitSeq) (hB : B.length = 7 * (k + 1)) (hfuel : k < fuel) :
    ebvRead fuel (ebvBlocks (k + 1) B ++ rest) = some (B, rest) := by
  induction k generalizing fuel B with
  | zero =>
    obtain ⟨fuel, rfl⟩ := Nat.exists_eq_add_one.2 hfuel
    simp [ebvBlocks, ebvRead_block, hB]
  | succ k ih =>
    obtain ⟨fuel, rfl⟩ := Nat.exists_eq_add_one.2 (Nat.zero_lt_of_lt hfuel)
    have hread := ih (fuel := fuel) (B := B.drop 7) (by rw [List.length_drop]; omega) (by omega)
    have hgroup : (B.take 7).length = 7 := by rw [List.length_take]; omega
    rw [ebvBlocks, List.cons_append, List.append_assoc, ebvRead_block hgroup, hread]
    simp

theorem ebvDecode_ebv (v : ℕ) (rest : BitSeq) : ebvDecode (ebv v ++ rest) = some (v, rest) := by
  obtain ⟨k, hk⟩ := Nat.exists_eq_add_one_of_ne_zero (nblk_pos v).ne'
  have hfuel : k < (ebv v ++ rest).length := by rw [List.length_append, ebv_length]; omega
  have hlen : (ubits (7 * nblk v) v).length = 7 * (k + 1) := by rw [ubits_length, hk]
  have hread : ebvRead (ebv v ++ rest).length (ebv v ++ rest) = some (ubits (7 * nblk v) v, rest) := by
    rw [← ebvRead_ebvBlocks rest hlen hfuel, ← hk, ebv]
  rw [ebvDecode, hread, Option.map_some, uval_ubits, Nat.mod_eq_of_lt (lt_two_pow_nblk v)]

/-- Settles O6: the blocks read back, and `nblk` is the least number of 7-bit groups that hold the value. -/
theorem ebvReadsBack : Obligations.EbvReadsBack := by
  have h1 (v : ℕ) : nblk v ≤ 1 ↔ v < 128 := nblk_le_iff Nat.one_pos
  have h2 (v : ℕ) : nblk v ≤ 2 ↔ v < 16384 := nblk_le_iff Nat.two_pos
  have h3 (v : ℕ) : nblk v ≤ 3 ↔ v < 2097152 := nblk_le_iff three_pos
  refine ⟨ebvDecode_ebv, ebv_length, fun v => ?_, fun v => ?_, fun v => ?_⟩
  · have := h1 v; have := nblk_pos v; omega
  · have := h1 v; have := h2 v; omega
  · have := h2 v; have := h3 v; omega

end Sys2Proof.Machine
end

section
/-! PROOF. Reading the fields of an air-interface frame (spec/30_encoding.md R45 to R49, R56 to R59): O5. One rule per field, one
decoded frame per format; whoever needs a frame's bits taken apart decodes them. -/

namespace Sys2Proof.Machine

/-! ## Reading one field (R45, R50 to R53) -/

/-- A field is read by its width and its code. -/
theorem takeField_append {α : Type} {n : ℕ} {code : BitSeq → Option α} {C : BitSeq} {a : α} (hlen : C.length = n)
    (hcode : code C = some a) (f : Field) (S : BitSeq) : takeField n code f (C ++ S) = .ok (a, S) := by
  subst hlen
  simp [takeField, hcode]

@[simp] theorem takeField_drCode (d : DivideRatio) (S : BitSeq) :
    takeField 1 drOfCode .dr (drCode d ++ S) = .ok (d, S) :=
  takeField_append (by cases d <;> rfl) (by cases d <;> rfl) _ _

@[simp] theorem takeField_mCode (m : MField) (S : BitSeq) : takeField 2 mOfCode .m (mCode m ++ S) = .ok (m, S) :=
  takeField_append (by cases m <;> rfl) (by cases m <;> rfl) _ _

@[simp] theorem takeField_flagCode (b : Bool) (f : Field) (S : BitSeq) :
    takeField 1 flagOfCode f (flagCode b ++ S) = .ok (b, S) :=
  takeField_append (by rfl) (by rfl) _ _

@[simp] theorem takeField_selCode (v : SelField) (S : BitSeq) :
    takeField 2 selOfCode .sel (selCode v ++ S) = .ok (v, S) :=
  takeField_append (by cases v <;> rfl) (by cases v <;> rfl) _ _

@[simp] theorem takeField_sessionCode (v : Session) (S : BitSeq) :
    takeField 2 sessionOfCode .session (sessionCode v ++ S) = .ok (v, S) :=
  takeField_append (by cases v <;> rfl) (by cases v <;> rfl) _ _

@[simp] theorem takeField_queryTargetCode (v : QueryTarget) (S : BitSeq) :
    takeField 1 queryTargetOfCode .target (queryTargetCode v ++ S) = .ok (v, S) :=
  takeField_append (by cases v <;> rfl) (by cases v <;> rfl) _ _

@[simp] theorem takeField_selectTargetCode (v : SelectTarget) (S : BitSeq) :
    takeField 3 selectTargetOfCode .target (selectTargetCode v ++ S) = .ok (v, S) :=
  takeField_append (by cases v <;> rfl) (by cases v <;> rfl) _ _

@[simp] theorem takeField_memBankCode (v : MemBank) (S : BitSeq) :
    takeField 2 memBankOfCode .membank (memBankCode v ++ S) = .ok (v, S) :=
  takeField_append (by cases v <;> rfl) (by cases v <;> rfl) _ _

@[simp] theorem takeField_upDnCode (v : UpDn) (S : BitSeq) :
    takeField 3 upDnOfCode .updn (upDnCode v ++ S) = .ok (v, S) :=
  takeField_append (by cases v <;> rfl) (by cases v <;> rfl) _ _

/-- A number's field reads back the number (R53). -/
@[simp] theorem takeField_ubits (n : ℕ) (v : BitVec n) (f : Field) (S : BitSeq) :
    takeField n (numberOfCode n) f (ubits n v.toNat ++ S) = .ok (v, S) := by
  refine takeField_append (ubits_length _ _) ?_ _ _
  rw [numberOfCode, uval_ubits, Nat.mod_eq_of_lt v.isLt, BitVec.ofNat_toNat, BitVec.setWidth_eq]

/-- The number that ends a frame. -/
@[simp] theorem takeField_ubits_last (n : ℕ) (v : BitVec n) (f : Field) :
    takeField n (numberOfCode n) f (ubits n v.toNat) = .ok (v, []) := by
  simpa using takeField_ubits n v f []

/-- The Mask field is as long as the Length field says (R58). -/
theorem takeField_mask {n : ℕ} {mask : BitSeq} (h : mask.length = n) (S : BitSeq) :
    takeField n some .mask (mask ++ S) = .ok (mask, S) :=
  takeField_append h rfl _ _

/-- The Pointer field ends itself (R54, R58). -/
@[simp] theorem takePointer_ebv (v : ℕ) (S : BitSeq) : takePointer (ebv v ++ S) = .ok (v, S) := by
  simp [takePointer, ebvDecode_ebv]

@[simp] theorem endOfFrame_nil {α : Type} (a : α) : endOfFrame a [] = .ok a := rfl

/-! ## Reading a whole frame (R46 to R49) -/

/-- Format Q, with whatever check bits. -/
theorem decodeFrame_query (f : QueryFields) (crc : BitVec 5) :
    decodeFrame (queryPayload f ++ ubits 5 crc.toNat) = .ok (.queryFrame f crc) := by
  simp [queryPayload, opcodeQuery, decodeFrame, decodeQueryFrame, bind, Except.bind]

/-- Format R. -/
theorem decodeFrame_queryRep (v : Session) : decodeFrame (queryRepFrame v) = .ok (.queryrepFrame v) := by
  cases v <;> rfl

/-- Format A in both layouts. -/
theorem decodeFrame_queryAdjust (f : QueryAdjustFields) :
    decodeFrame (queryAdjustFrame f) =
      .ok (f.session.elim (.queryadjustTable7 f.updn) (.queryadjustFrame · f.updn)) := by
  obtain ⟨_ | v, u⟩ := f
  · cases u <;> rfl
  · cases v <;> cases u <;> rfl

/-- Format S with a mask that its Length field can count, with whatever check bits. -/
theorem decodeFrame_select (f : SelectFields) (crc : BitVec 16) (hmask : f.mask.length ≤ 255) :
    decodeFrame (selectPayload f ++ ubits 16 crc.toNat) = .ok (.selectFrame f crc) := by
  obtain ⟨length, hlength⟩ : ∃ v : BitVec 8, f.mask.length = v.toNat :=
    ⟨BitVec.ofNat 8 f.mask.length, by rw [BitVec.toNat_ofNat]; omega⟩
  simp [selectPayload, opcodeSelect, decodeFrame, decodeSelectFrame, hlength, takeField_mask hlength, bind, Except.bind]

/-! ## The fields are unique (R59) -/

/-- Settles O5: equal bits, with any check bits after them, decode to the same row. -/
theorem frameBitsDetermineTheFields : Obligations.FrameBitsDetermineTheFields := by
  refine ⟨fun f g h => ?_, fun a b h => ?_, fun f g h => ?_, fun f g hf hg h => ?_⟩
  · have hdec := decodeFrame_query f 0
    rw [h, decodeFrame_query] at hdec
    cases hdec; rfl
  · have hdec := decodeFrame_queryRep a
    rw [h, decodeFrame_queryRep] at hdec
    cases hdec; rfl
  · have hdec := decodeFrame_queryAdjust f
    rw [h, decodeFrame_queryAdjust] at hdec
    obtain ⟨_ | _, _⟩ := f <;> obtain ⟨_ | _, _⟩ := g <;> cases hdec <;> rfl
  · have hdec := decodeFrame_select f 0 hf
    rw [h, decodeFrame_select g 0 hg] at hdec
    cases hdec; rfl

end Sys2Proof.Machine
end

section
/-! PROOF. The decoder against the encoder (spec/30_encoding.md R59 to R61): O1 to O4. A request decodes when its operand names are
the selector's and each operand has its carrier, both of which see the operands as a set of named values. -/

namespace Sys2Proof.Machine

/-! ## Requests (R60, R61) -/

theorem checkNames_eq_ok_iff {names : List OperandName} {args : List (OperandName × Value)} :
    checkNames names args = .ok () ↔ (∀ a ∈ args, a.1 ∈ names) ∧ (args.map (·.1)).Nodup := by
  unfold checkNames
  cases h : args.find? (fun a => !names.contains a.1) with
  | some a =>
    have hmem := List.mem_of_find?_eq_some h
    have hbad := List.find?_some h
    simp only [Bool.not_eq_true', List.contains_eq_mem, decide_eq_false_iff_not] at hbad
    simpa using fun hall => absurd (hall _ _ hmem) hbad
  | none =>
    have hall : ∀ a ∈ args, a.1 ∈ names := by simpa using h
    rw [and_iff_right hall]
    split_ifs with hnd <;> simp [hnd]

/-- A request stands for an instruction when its selector is an operation's, its operand names are that operation's, and its
operands are read off as the instruction's. -/
theorem decodeRequest_eq_ok_iff {p : Params} {r : Request} {i : Instr} :
    decodeRequest p r = .ok i ↔
      r.op.toNat < 14 ∧ checkNames (operandNames r.op.toNat) r.args = .ok () ∧ decodeArgs p r.op r.args = .ok i := by
  unfold decodeRequest
  split
  · simp; omega
  · cases checkNames (operandNames r.op.toNat) r.args with
    | error e => simp [bind, Except.bind]
    | ok u => simp [bind, Except.bind]; omega

theorem decodeRequest_of_reserved (p : Params) {r : Request} (h : 14 ≤ r.op.toNat) :
    decodeRequest p r = .error (.reservedSelector r.op) :=
  if_pos h

/-- The operand of a name that is given once is the value beside it. -/
theorem lookup_eq_some_iff_mem {args : List (OperandName × Value)} (hnd : (args.map (·.1)).Nodup) {n : OperandName}
    {v : Value} : args.lookup n = some v ↔ (n, v) ∈ args := by
  induction args with
  | nil => simp
  | cons a args ih =>
    obtain ⟨k, w⟩ := a
    obtain ⟨hfresh, hnd⟩ := List.nodup_cons.1 hnd
    rw [List.lookup_cons, List.mem_cons]
    by_cases hn : n = k
    · subst hn
      have hnot : (n, v) ∉ args := fun h => hfresh (List.mem_map_of_mem (f := (·.1)) h)
      simp [hnot, eq_comm]
    · rw [beq_false_of_ne hn]
      simp [hn, ih hnd]

theorem lookup_perm {args args' : List (OperandName × Value)} (hp : args.Perm args') (hnd : (args.map (·.1)).Nodup)
    (n : OperandName) : args.lookup n = args'.lookup n := by
  have hnd' := (hp.map (·.1)).nodup_iff.1 hnd
  ext v
  rw [lookup_eq_some_iff_mem hnd, lookup_eq_some_iff_mem hnd', hp.mem_iff]

/-- The operands of a request are read through their names alone. -/
theorem decodeArgs_congr {args args' : List (OperandName × Value)} (h : ∀ n, args.lookup n = args'.lookup n) (p : Params)
    (op : BitVec 4) : decodeArgs p op args = decodeArgs p op args' := by
  simp only [decodeArgs, sessionOperand, operand, operand?, h]

/-- Settles O3: the check of the names and the reading of the operands see the operands as a set. -/
theorem requestOperandsComeInAnyOrder : Obligations.RequestOperandsComeInAnyOrder := by
  intro p op args args' i hp hdec
  obtain ⟨hop, hnames, hargs⟩ := decodeRequest_eq_ok_iff.1 hdec
  obtain ⟨hmem, hnd⟩ := checkNames_eq_ok_iff.1 hnames
  refine decodeRequest_eq_ok_iff.2 ⟨hop, checkNames_eq_ok_iff.2 ⟨?_, ?_⟩, ?_⟩
  · exact fun a ha => hmem a (hp.mem_iff.2 ha)
  · exact (hp.map _).nodup_iff.1 hnd
  · rw [← hargs]
    exact (decodeArgs_congr (lookup_perm hp hnd) p op).symm

/-- Settles O4: the decoder rejects the two selectors before it looks at the operands, and `step` refuses what it rejects. -/
theorem reservedSelectorsAreRefused : Obligations.ReservedSelectorsAreRefused := by
  intro op args hop
  have hdec (p : Params) : decode p (.request ⟨op, args⟩) = .error (.reservedSelector op) :=
    decodeRequest_of_reserved p (show 14 ≤ op.toNat by rcases hop with rfl | rfl <;> decide)
  refine ⟨hdec, fun s rest hb hin => ?_⟩
  obtain ⟨-, hreject⟩ := stepRunsTheDecodedInstruction s _ rest hb hin
  exact hreject _ (hdec s.params)

/-! ## The round trip -/

/-- An operation's own request decodes to it once its operands are read back. -/
theorem decode_request {p : Params} {i : Instr} {r : Request} (he : encode i = .request r)
    (hshape : Laws.RequestShape.Statement i) (hargs : decodeArgs p r.op r.args = .ok i) :
    decode p (encode i) = .ok i := by
  obtain ⟨hop, hnames⟩ := hshape r he
  rw [he]
  exact decodeRequest_eq_ok_iff.2 ⟨hop, hnames, hargs⟩

/-- The `session` operand is read as it was written; only `table_7` lets it be left out (R106). -/
theorem sessionOperand_optionalArg {layout : QadjLayout} {session : Option String} {args : List (OperandName × Value)}
    (hargs : args.lookup .session = none) (h : session.isSome ∨ layout = .table_7) :
    sessionOperand layout (optionalArg .session (session.map .token) ++ args) = .ok session := by
  cases session with
  | some t => cases layout <;> rfl
  | none =>
    obtain rfl : layout = .table_7 := by simpa using h
    simp [sessionOperand, operand?, optionalArg, hargs]

theorem decode_queryadjust {p : Params} {session : Option String} (updn : String) (blf dr : Rat)
    (h : session.isSome ∨ p.qadjLayout = .table_7) :
    decode p (encode (.queryadjust session updn blf dr)) = .ok (.queryadjust session updn blf dr) := by
  refine decode_request rfl (Laws.RequestShape.queryadjust session updn blf dr) ?_
  simp only [decodeArgs]
  rw [sessionOperand_optionalArg rfl h]
  cases session <;> rfl

/-- Settles O2: requests by their shape and their operands, frames field by field. -/
theorem decodeInvertsEncode : Obligations.DecodeInvertsEncode := by
  intro p i hwf
  cases i with
  | reset => exact decode_request rfl Laws.RequestShape.reset rfl
  | cfgWrite rate pwD => cases pwD <;> exact decode_request rfl (Laws.RequestShape.cfgWrite rate _) rfl
  | crc5 bits => exact decode_request rfl (Laws.RequestShape.crc5 bits) rfl
  | crc16 bits => exact decode_request rfl (Laws.RequestShape.crc16 bits) rfl
  | ebv value => exact decode_request rfl (Laws.RequestShape.ebv value) rfl
  | pieEncode bits => exact decode_request rfl (Laws.RequestShape.pieEncode bits) rfl
  | piePreamble blf dr => exact decode_request rfl (Laws.RequestShape.piePreamble blf dr) rfl
  | pieFramesync => exact decode_request rfl Laws.RequestShape.pieFramesync rfl
  | query dr m trext sel session target q blf =>
    exact decode_request rfl (Laws.RequestShape.query dr m trext sel session target q blf) rfl
  | queryrep session => exact decode_request rfl (Laws.RequestShape.queryrep session) rfl
  | select target action membank pointer length mask truncate blf dr =>
    exact decode_request rfl (Laws.RequestShape.select target action membank pointer length mask truncate blf dr) rfl
  | queryadjust session updn blf dr => exact decode_queryadjust updn blf dr (by simpa [wellFormed] using hwf)
  | extract nMaxGap nT1 nRn16 => exact decode_request rfl (Laws.RequestShape.extract nMaxGap nT1 nRn16) rfl
  | sync frame => exact decode_request rfl (Laws.RequestShape.sync frame) rfl
  | queryFrame f crc => exact decodeFrame_query f crc
  | queryrepFrame session => exact decodeFrame_queryRep session
  | selectFrame f crc =>
    simp only [wellFormed, maskFits, Bool.and_eq_true, decide_eq_true_eq] at hwf
    obtain ⟨⟨hmask, -⟩, -⟩ := hwf
    exact decodeFrame_select f crc hmask
  | queryadjustFrame session updn => exact decodeFrame_queryAdjust ⟨some session, updn⟩
  | queryadjustTable7 updn => exact decodeFrame_queryAdjust ⟨none, updn⟩

/-- Settles O1: the decoder runs on each of the twelve forms, whatever the parameters. -/
theorem wordsOfTheSpecDecode : Obligations.WordsOfTheSpecDecode :=
  fun _ => ⟨rfl, rfl, rfl, rfl, rfl, rfl, rfl, rfl, rfl, rfl, rfl, rfl⟩

end Sys2Proof.Machine
end

section
/-! PROOF. The frames the block produces (spec/30_encoding.md R57, R59): O45, O60. A delivered frame is one of the four that the
CommandEncoder builds, with fields that passed validation; each is the encoding of a well-formed frame row, so it decodes. -/

namespace Sys2Proof.Machine

/-! ## What validation lets through (R105, R106) -/

/-- A mask that passes is the operand, as long as the Length operand says. -/
theorem needMask_length {n : ℕ} {mask mask' : BitSeq} (h : needMask n mask = .ok mask') : mask'.length = n := by
  unfold needMask at h
  split_ifs at h with hlen
  cases h
  exact hlen

theorem pointerOf_fits {wPtr : Option ℕ} {v : Int} {ptr : ℕ} (h : pointerOf wPtr v = some ptr) :
    pointerFits wPtr ptr = true := by
  unfold pointerOf at h
  split_ifs at h with hv
  cases h
  exact hv.2

/-- The fields of a Select keep its bounds: the mask is as long as a legal Length, the pointer fits `W_PTR`. -/
theorem validateSelect_bounds {wPtr : Option ℕ} {target : String} {action : Int} {membank : String}
    {pointer length : Int} {mask : BitSeq} {truncate : Bool} {dr : Rat} {f : SelectFields} {d : DivideRatio}
    (h : validateSelect wPtr target action membank pointer length mask truncate dr = .ok (f, d)) :
    f.mask.length ≤ 255 ∧ pointerFits wPtr f.pointer = true := by
  obtain ⟨_, -, h⟩ := bind_eq_ok h
  obtain ⟨_, -, h⟩ := bind_eq_ok h
  obtain ⟨_, -, h⟩ := bind_eq_ok h
  obtain ⟨ptr, hptr, h⟩ := bind_eq_ok h
  obtain ⟨len, hlen, h⟩ := bind_eq_ok h
  obtain ⟨mask', hmask, h⟩ := bind_eq_ok h
  obtain ⟨_, -, h⟩ := bind_eq_ok h
  cases h
  obtain ⟨-, hle, rfl⟩ := rangeOf_eq_some_iff.1 (need_eq_ok_iff.1 hlen)
  exact ⟨by rw [needMask_length hmask]; omega, pointerOf_fits (need_eq_ok_iff.1 hptr)⟩

/-- A Session field stands exactly under the layout `gen2_9`. -/
theorem validateAdjustSession_layout {layout : QadjLayout} {session : Option String} {ses : Option Session}
    (h : validateAdjustSession layout session = .ok ses) :
    layout = if ses.isSome then .gen2_9 else .table_7 := by
  cases layout with
  | table_7 => cases h; rfl
  | gen2_9 =>
    rw [validateAdjustSession] at h
    cases hs : need .session sessionSet (session.bind sessionOf) with
    | error e => rw [hs] at h; cases h
    | ok v => rw [hs] at h; cases h; rfl

theorem validateQueryAdjust_layout {layout : QadjLayout} {session : Option String} {updn : String} {dr : Rat}
    {f : QueryAdjustFields} {d : DivideRatio} (h : validateQueryAdjust layout session updn dr = .ok (f, d)) :
    layout = if f.session.isSome then .gen2_9 else .table_7 := by
  obtain ⟨ses, hses, h⟩ := bind_eq_ok h
  obtain ⟨_, -, h⟩ := bind_eq_ok h
  obtain ⟨_, -, h⟩ := bind_eq_ok h
  cases h
  exact validateAdjustSession_layout hses

/-! ## The frames an operation delivers -/

/-- The frames the CommandEncoder builds under the model parameters (R100, R103 to R106). -/
inductive BuiltFrame (p : Params) : BitSeq → Prop where
  | query (f : QueryFields) : BuiltFrame p (queryFrame f)
  | queryRep (v : Session) : BuiltFrame p (queryRepFrame v)
  | select (f : SelectFields) (hmask : f.mask.length ≤ 255) (hptr : pointerFits p.wPtr f.pointer = true) :
      BuiltFrame p (selectFrame p.crc16 f)
  | queryAdjust (f : QueryAdjustFields) (hlayout : p.qadjLayout = if f.session.isSome then .gen2_9 else .table_7) :
      BuiltFrame p (queryAdjustFrame f)

/-- An answer whose one new response is a success with the frame `fb`. -/
def DeliversFrame (s : State) (a : Answer) (fb : BitSeq) : Prop :=
  ∃ t wf, a = .next t ∧ t.outbox = s.outbox ++ [okResponse (.frame fb wf)]

/-- An end of an operation delivers the result it was given, so only a frame as a frame. -/
theorem finish_delivers {st : Status} {al : Option AllowedSet} {r : Result} {s s₁ : State} {fb : BitSeq}
    (hs : s₁.outbox = s.outbox) (h : DeliversFrame s (.next (finish st al r s₁)) fb) :
    ∃ wf, r = .frame fb wf := by
  obtain ⟨t, wf, ht, ho⟩ := h
  cases ht
  rw [finish_outbox, hs, List.append_cancel_left_eq] at ho
  cases ho
  exact ⟨wf, rfl⟩

theorem refused_delivers_no_frame {s : State} {r : Refusal} {fb : BitSeq} : ¬ DeliversFrame s (.refused r) fb := by
  rintro ⟨t, wf, ht, -⟩
  cases ht

theorem fault_delivers_no_frame {s : State} {f : Fault} {fb : BitSeq} : ¬ DeliversFrame s (.fault f) fb := by
  rintro ⟨t, wf, ht, -⟩
  cases ht

theorem raise_delivers_no_frame {e : Failure} {s : State} {fb : BitSeq} : ¬ DeliversFrame s (raise e s) fb := by
  intro h
  obtain ⟨wf, hr⟩ := finish_delivers rfl h
  cases hr

theorem respond_delivers_no_frame {r : Result} {s s₁ : State} {fb : BitSeq} (hr : ∀ wf, r ≠ .frame fb wf)
    (hs : s₁.outbox = s.outbox) : ¬ DeliversFrame s (respond r s₁) fb := by
  intro h
  obtain ⟨wf, hfb⟩ := finish_delivers hs h
  exact hr wf hfb

/-- A transmission delivers the frame it was given (R108). -/
theorem transmit_delivers {pre : Except Refusal (Timing × Waveform)} {s : State} {fb fb' : BitSeq}
    (h : DeliversFrame s (transmit pre fb s) fb') : fb' = fb := by
  rcases pre with r | ⟨t, wf⟩
  · exact absurd h refused_delivers_no_frame
  · obtain ⟨wf', hr⟩ := finish_delivers rfl h
    cases hr
    rfl

/-- What an operation delivers as a frame is one of the four built frames. -/
theorem exec_delivers_built {i : Instr} {s : State} {fb : BitSeq} (h : DeliversFrame s (exec i s) fb) :
    BuiltFrame s.params fb := by
  cases i with
  | query dr m trext sel session target q blf =>
    simp only [exec, execQuery] at h
    split at h
    · exact absurd h raise_delivers_no_frame
    · exact transmit_delivers h ▸ .query _
  | queryrep session =>
    simp only [exec, execQueryrep] at h
    split at h
    · exact absurd h raise_delivers_no_frame
    · exact transmit_delivers h ▸ .queryRep _
  | select target action membank pointer length mask truncate blf dr =>
    simp only [exec, execSelect] at h
    split at h
    · exact absurd h raise_delivers_no_frame
    · rename_i f d hf
      obtain ⟨hmask, hptr⟩ := validateSelect_bounds hf
      exact transmit_delivers h ▸ .select f hmask hptr
  | queryadjust session updn blf dr =>
    simp only [exec, execQueryadjust] at h
    split at h
    · exact absurd h raise_delivers_no_frame
    · rename_i f d hf
      exact transmit_delivers h ▸ .queryAdjust f (validateQueryAdjust_layout hf)
  | reset | crc5 _ | crc16 _ => exact absurd h (respond_delivers_no_frame nofun rfl)
  | cfgWrite rate pwD =>
    simp only [exec, execCfgWrite] at h
    split at h
    · exact absurd h refused_delivers_no_frame
    · exact absurd h (respond_delivers_no_frame nofun rfl)
  | ebv value =>
    simp only [exec, execEbv] at h
    split at h
    · exact absurd h raise_delivers_no_frame
    · exact absurd h (respond_delivers_no_frame nofun rfl)
  | pieEncode bits =>
    simp only [exec, execPieEncode] at h
    split at h
    · exact absurd h refused_delivers_no_frame
    · exact absurd h (respond_delivers_no_frame nofun rfl)
  | piePreamble blf dr =>
    simp only [exec, execPiePreamble] at h
    split at h
    · exact absurd h raise_delivers_no_frame
    · split at h
      · exact absurd h refused_delivers_no_frame
      · exact absurd h (respond_delivers_no_frame nofun rfl)
  | pieFramesync =>
    simp only [exec, execPieFramesync] at h
    split at h
    · exact absurd h refused_delivers_no_frame
    · exact absurd h (respond_delivers_no_frame nofun rfl)
  | extract nMaxGap nT1 nRn16 =>
    simp only [exec, execExtract] at h
    split at h
    · exact absurd h refused_delivers_no_frame
    · split at h
      · exact absurd h fault_delivers_no_frame
      · exact absurd h (respond_delivers_no_frame nofun rfl)
  | sync frame =>
    simp only [exec, execSync] at h
    split at h
    · exact absurd h refused_delivers_no_frame
    · split at h
      · exact absurd h raise_delivers_no_frame
      · exact absurd h (respond_delivers_no_frame nofun rfl)
  | queryFrame _ _ | queryrepFrame _ | selectFrame _ _ | queryadjustFrame _ _ | queryadjustTable7 _ =>
    exact absurd h refused_delivers_no_frame

/-! ## Built frames are encodings (R59) -/

/-- Every `n` bits are the field of a number of `n` bits. -/
theorem exists_ubits_eq {n : ℕ} {S : BitSeq} (h : S.length = n) : ∃ v : BitVec n, ubits n v.toNat = S := by
  subst h
  exact ⟨BitVec.ofNat _ (uval S), by rw [BitVec.toNat_ofNat, Nat.mod_eq_of_lt (uval_lt S), ubits_uval]⟩

/-- A built frame is the encoding of a well-formed frame row: its check bits are the fields' own. -/
theorem BuiltFrame.exists_row {p : Params} {fb : BitSeq} (h : BuiltFrame p fb) :
    ∃ j, wellFormed p j = true ∧ encode j = .frame fb := by
  cases h with
  | query f =>
    obtain ⟨crc, hcrc⟩ := exists_ubits_eq (crc5_length (queryPayload f))
    exact ⟨.queryFrame f crc, decide_eq_true hcrc, by rw [encode, hcrc, queryFrame]⟩
  | queryRep v => exact ⟨.queryrepFrame v, rfl, rfl⟩
  | select f hmask hptr =>
    refine ⟨.selectFrame f (crc16Of p.crc16 (selectPayload f)), ?_, rfl⟩
    simp [wellFormed, maskFits, hmask, framePointerFits, hptr, selectCrcHolds]
  | queryAdjust f hlayout =>
    obtain ⟨_ | v, u⟩ := f
    · exact ⟨.queryadjustTable7 u, decide_eq_true hlayout, rfl⟩
    · exact ⟨.queryadjustFrame v u, decide_eq_true hlayout, rfl⟩

/-- Settles O45: the delivered frame is a built one, so the encoding of a well-formed row, which decoding gives back. -/
theorem producedFramesAreLegal : Obligations.ProducedFramesAreLegal := by
  intro i s t fb wf hexec hout
  obtain ⟨j, hwf, henc⟩ := (exec_delivers_built ⟨t, wf, hexec, hout⟩).exists_row
  have hdec := decodeInvertsEncode s.params j hwf
  rw [henc] at hdec
  exact ⟨j, hdec, hwf, henc⟩

/-! ## Frames offered as operations -/

/-- Settles O60: each frame row's arm is the refusal. -/
theorem airFramesAreNoOperations : Obligations.AirFramesAreNoOperations :=
  ⟨fun _ _ _ => rfl, fun _ _ => rfl, fun _ _ _ => rfl, fun _ _ _ => rfl, fun _ _ => rfl⟩

end Sys2Proof.Machine
end

section
/-! PROOF. The check bits (spec/40_crc.md R65 to R72): O24 to O29. A step of either register is linear over GF(2) in the register
and the input bit, and a register fed its own bits, top first, shifts itself out. -/

namespace Sys2Proof.Machine

/-! ## Delivering a result (R160) -/

/-- An operation that ends by responding in the state it began in delivers its result and writes nothing else. -/
theorem delivers_of_respond {i : Instr} {s : State} {r : Result} (h : exec i s = respond r s) : Delivers i s r :=
  ⟨_, h, finish_endsWith rfl rfl rfl, rfl, rfl⟩

/-! ## Linear registers -/

/-- A register whose step takes sums to sums does so over two sequences of one length. -/
theorem foldl_zipWith_xor {σ : Type} {step : σ → Bit → σ} {add : σ → σ → σ}
    (hstep : ∀ r q a b, step (add r q) (a ^^ b) = add (step r a) (step q b)) {x y : BitSeq} (h : x.length = y.length)
    (r q : σ) : (List.zipWith xor x y).foldl step (add r q) = add (x.foldl step r) (y.foldl step q) := by
  induction x generalizing y r q with
  | nil => cases y with
    | nil => rfl
    | cons b y => cases h
  | cons a x ih => cases y with
    | nil => cases h
    | cons b y => simpa [hstep] using ih (Nat.succ.inj h) (step r a) (step q b)

/-- The field of an exclusive or is the exclusive or of the fields. -/
theorem ubits_xor (n v w : ℕ) : ubits n (v ^^^ w) = List.zipWith xor (ubits n v) (ubits n w) := by
  induction n with
  | zero => rfl
  | succ n ih => simp [ubits, ih]

/-! ## The CRC5 register (R66, R67) -/

/-- Settles O24: each row of the table is a row of the model's. -/
theorem crc5TransitionTable : Obligations.Crc5TransitionTable :=
  fun _ _ _ _ => ⟨rfl, rfl, rfl, rfl⟩

/-- The closed form of R67: the table's rows as one equation. -/
theorem crc5Step_eq (c : Crc5Reg) (b : Bit) :
    crc5Step c b = ⟨b ^^ c.c4, c.c0, c.c1, c.c2 ^^ (b ^^ c.c4), c.c3⟩ := by
  obtain ⟨c0, c1, c2, c3, c4⟩ := c
  cases c4 <;> cases b <;> simp [crc5Step]

/-- The register's five places as the tuple of R67. -/
def crc5Places (c : Crc5Reg) : Bit × Bit × Bit × Bit × Bit := (c.c0, c.c1, c.c2, c.c3, c.c4)

/-- Settles O25: the closed form's register is the model's, step by step. -/
theorem crc5CompletesByTheClosedForm : Obligations.Crc5CompletesByTheClosedForm := by
  intro bits s c
  have hc : c = crc5Places (crc5Run bits) :=
    List.foldl_hom crc5Places (init := crc5Init) fun c b => by simp [crc5Step_eq, crc5Places]
  rw [hc]
  exact delivers_of_respond rfl

/-! ## The residue of CRC5 (R69 (c)) -/

/-- The register's own top bit as input gives no feedback. -/
theorem crc5Step_c4 (c0 c1 c2 c3 c4 : Bit) :
    crc5Step ⟨c0, c1, c2, c3, c4⟩ c4 = ⟨false, c0, c1, c2, c3⟩ := by
  simp [crc5Step_eq]

/-- A register fed its own read-out ends at zero. -/
theorem foldl_crc5Step_readOut (c : Crc5Reg) :
    (crc5ReadOut c).foldl crc5Step c = ⟨false, false, false, false, false⟩ := by
  obtain ⟨c0, c1, c2, c3, c4⟩ := c
  simp only [crc5ReadOut, List.foldl_cons, List.foldl_nil, crc5Step_c4]

/-- Settles O26: after `F` the register is fed its own read-out. -/
theorem crc5ResidueIsZero : Obligations.Crc5ResidueIsZero := by
  intro F
  rw [crc5, crc5Run_append, crc5, foldl_crc5Step_readOut]
  rfl

/-! ## CRC5 is affine (R69 (d)) -/

/-- The sum of two registers, place by place. -/
def crc5Add (c d : Crc5Reg) : Crc5Reg := ⟨c.c0 ^^ d.c0, c.c1 ^^ d.c1, c.c2 ^^ d.c2, c.c3 ^^ d.c3, c.c4 ^^ d.c4⟩

theorem crc5Step_add (c d : Crc5Reg) (a b : Bit) :
    crc5Step (crc5Add c d) (a ^^ b) = crc5Add (crc5Step c a) (crc5Step d b) := by
  simp [crc5Step_eq, crc5Add, Bool.xor_left_comm]

theorem crc5ReadOut_add (c d : Crc5Reg) :
    crc5ReadOut (crc5Add c d) = List.zipWith xor (crc5ReadOut c) (crc5ReadOut d) := rfl

/-- The register is affine: the initial value is its own threefold sum. -/
theorem crc5Run_add_add {x y z : BitSeq} (hxy : x.length = y.length) (hyz : y.length = z.length) :
    crc5Run (List.zipWith xor (List.zipWith xor x y) z) = crc5Add (crc5Add (crc5Run x) (crc5Run y)) (crc5Run z) := by
  have hz : (List.zipWith xor x y).length = z.length := by simp [hxy, hyz]
  have hinit : crc5Init = crc5Add (crc5Add crc5Init crc5Init) crc5Init := rfl
  rw [crc5Run, hinit, foldl_zipWith_xor crc5Step_add hz, foldl_zipWith_xor crc5Step_add hxy]
  rfl

/-- Settles O27: the read-out of the affine register. -/
theorem crc5IsLinear : Obligations.Crc5IsLinear := by
  intro x y z hxy hyz
  simp only [crc5, crc5Run_add_add hxy hyz, crc5ReadOut_add]

/-! ## CRC16 completes (R70, R71) -/

theorem crc16Step_eq (r : BitVec 16) (b : Bit) :
    crc16Step r b = if (r.msb ^^ b) then (r <<< 1) ^^^ 0x1021#16 else r <<< 1 := by
  rw [crc16Step, BitVec.msb_eq_getLsbD_last]

@[simp] theorem uval_crc16Bits (choice : Crc16Choice) (F : BitSeq) :
    uval (crc16Bits choice F) = (crc16Of choice F).toNat := by
  rw [crc16Bits, uval_ubits, Nat.mod_eq_of_lt (crc16Of choice F).isLt]

/-- Settles O28: the sixteen bits read back as the parameter's value; the default's loop tests the top bit. -/
theorem crc16Completes : Obligations.Crc16Completes := by
  intro bits s
  refine ⟨_, delivers_of_respond rfl, crc16Bits_length _ _, uval_crc16Bits _ _, fun hgen2 => ?_⟩
  simp only [uval_crc16Bits, hgen2, crc16Of, crc16Gen2, crc16Run, ← crc16Step_eq]

/-! ## The residue of CRC16 (R72) -/

/-- What a step adds to the shifted register. -/
def crc16Feedback (f : Bit) : BitVec 16 := if f then 0x1021#16 else 0#16

theorem crc16Feedback_xor (f g : Bit) : crc16Feedback (f ^^ g) = crc16Feedback f ^^^ crc16Feedback g := by
  cases f <;> cases g <;> rfl

theorem crc16Step_eq_xor (r : BitVec 16) (b : Bit) : crc16Step r b = r <<< 1 ^^^ crc16Feedback (r.msb ^^ b) := by
  rw [crc16Step_eq]
  cases r.msb ^^ b <;> simp [crc16Feedback]

theorem crc16Step_xor (r q : BitVec 16) (a b : Bit) :
    crc16Step (r ^^^ q) (a ^^ b) = crc16Step r a ^^^ crc16Step q b := by
  simp only [crc16Step_eq_xor, BitVec.msb_xor, crc16Feedback_xor, BitVec.shiftLeft_xor_distrib]
  ac_rfl

/-- The register's own top bit as input gives no feedback. -/
theorem crc16Step_msb (r : BitVec 16) : crc16Step r r.msb = r <<< 1 := by
  simp [crc16Step_eq]

/-- A register whose top `k` bits are out, fed its other `n` bits, ends at zero. -/
theorem foldl_crc16Step_shifted {n k : ℕ} (h : n + k = 16) (r : BitVec 16) :
    (ubits n r.toNat).foldl crc16Step (r <<< k) = 0#16 := by
  induction n generalizing k with
  | zero => simp [show k = 16 by omega, ubits]
  | succ n ih =>
    have htop : r.toNat.testBit n = (r <<< k).msb := by
      have hn : n < 16 := by omega
      have hk : ¬ 15 < k := by omega
      simp [BitVec.msb_eq_getLsbD_last, BitVec.testBit_toNat, BitVec.getLsbD_eq_getElem hn, show 15 - k = n by omega, hk]
    rw [ubits, List.foldl_cons, htop, crc16Step_msb, ← BitVec.shiftLeft_add]
    exact ih (by omega)

/-- Sixteen ones move the zero register to the residue. -/
theorem foldl_crc16Step_ones : (ubits 16 0xFFFF).foldl crc16Step 0#16 = 0x1D0F#16 := by decide +kernel

/-- A register fed the complement of its own bits ends at the residue: its own bits leave zero, the ones leave 0x1D0F. -/
theorem foldl_crc16Step_complement (r : BitVec 16) :
    (ubits 16 (r ^^^ 0xFFFF#16).toNat).foldl crc16Step r = 0x1D0F#16 := by
  have hbits : ubits 16 (r ^^^ 0xFFFF#16).toNat = List.zipWith xor (ubits 16 r.toNat) (ubits 16 0xFFFF) := by
    rw [BitVec.toNat_xor, ubits_xor]; rfl
  calc (ubits 16 (r ^^^ 0xFFFF#16).toNat).foldl crc16Step r
      = (List.zipWith xor (ubits 16 r.toNat) (ubits 16 0xFFFF)).foldl crc16Step (r <<< 0 ^^^ 0#16) := by
        rw [hbits, BitVec.shiftLeft_zero, BitVec.xor_zero]
    _ = (ubits 16 r.toNat).foldl crc16Step (r <<< 0) ^^^ (ubits 16 0xFFFF).foldl crc16Step 0#16 :=
        foldl_zipWith_xor crc16Step_xor (by simp) _ _
    _ = 0x1D0F#16 := by rw [foldl_crc16Step_shifted rfl, foldl_crc16Step_ones, BitVec.zero_xor]

/-- Settles O29: after `F` the register is fed the complement of its own bits. -/
theorem crc16Residue : Obligations.Crc16Residue := by
  intro F
  rw [crc16Run_append]
  exact foldl_crc16Step_complement (crc16Run F)

end Sys2Proof.Machine
end

section
/-! PROOF. The PulseIntervalEncoder and its configuration (spec/41_pie.md): O23, O30 to O35. Under positive values every floor of R81
is at least `n_pw`, so each pulse has room for its low part, and the lengths of the waveforms add up. -/

namespace Sys2Proof.Machine

/-! ## The ends of an operation, in the terms of claims -/

/-- An operation that ends by responding with a waveform in the state it began in writes the TX waveform buffer only. -/
theorem transmits_of_respondWaveform {i : Instr} {s : State} {r : Result} {wf : Waveform}
    (h : exec i s = respondWaveform wf r s) : Transmits i s r wf :=
  ⟨_, h, finish_endsWith rfl rfl rfl, rfl, rfl, rfl, rfl, rfl⟩

theorem raises_of_raise {i : Instr} {s : State} {e : Failure} (h : exec i s = raise e s) : Raises i s e :=
  ⟨_, h, finish_endsWith rfl rfl rfl, rfl, rfl⟩

/-! ## CFG_WRITE (R94) -/

theorem givenNotPositive_iff {pwD : Option ℚ} : givenNotPositive pwD = true ↔ ∃ v ∈ pwD, v ≤ 0 := by
  cases pwD <;> simp [givenNotPositive]

theorem execCfgWrite_of_pos {rate : ℚ} {pwD : Option ℚ} (hr : 0 < rate) (hp : ∀ v ∈ pwD, 0 < v) (s : State) :
    execCfgWrite rate pwD s = respond .nothing (writeCfg rate pwD s) := by
  have hgiven : givenNotPositive pwD = false := by
    rw [← Bool.not_eq_true, givenNotPositive_iff]
    exact fun ⟨v, hv, hle⟩ => (hp v hv).not_ge hle
  simp [execCfgWrite, hr.not_ge, hgiven]

theorem execCfgWrite_of_nonpos {rate : ℚ} {pwD : Option ℚ} (h : rate ≤ 0 ∨ ∃ v ∈ pwD, v ≤ 0) (s : State) :
    execCfgWrite rate pwD s = .refused .cfgValueNotPositive := by
  rw [← givenNotPositive_iff] at h
  simp [execCfgWrite, h]

/-- Settles O23: `writeCfg` is reached by positive values alone, and takes an omitted `pw_d` from the register. -/
theorem cfgWriteSetsTheConfiguration : Obligations.CfgWriteSetsTheConfiguration := by
  refine fun rate pwD s => ⟨fun ⟨hr, hp⟩ => ?_, fun h => execCfgWrite_of_nonpos h s⟩
  refine ⟨_, execCfgWrite_of_pos hr hp s, finish_endsWith rfl rfl rfl, rfl, ?_, ?_, rfl⟩
  · rintro rfl; rfl
  · rintro v rfl; rfl

/-! ## Sample counts (R81, R89, R93) -/

theorem floorNat_cast {q : ℚ} (h : 0 ≤ q) : (floorNat q : ℤ) = ⌊q⌋ :=
  Int.toNat_of_nonneg (Int.floor_nonneg.2 h)

theorem floorNat_mono {p q : ℚ} (h : p ≤ q) : floorNat p ≤ floorNat q :=
  Int.toNat_le_toNat (Int.floor_mono h)

theorem timingOf_2000000_12 :
    timingOf 2000000 12 = { rate := 2000000, nPw := 24, nData0 := 48, nData1 := 96, nRtcal := 144, nDelim := 24 } := by
  decide +kernel

section Counts

variable {rate pwD : ℚ} (hr : 0 < rate) (hp : 0 < pwD)
include hr

theorem nDelim_cast : ((timingOf rate pwD).nDelim : ℤ) = ⌊12 * rate / 1000000⌋ :=
  floorNat_cast (by positivity)

theorem trcalCount_cast {blf : ℚ} (hb : 0 < blf) (d : DivideRatio) :
    (trcalCount rate blf d : ℤ) = ⌊drValue d * rate / blf⌋ := by
  have hd : 0 < drValue d := by cases d <;> norm_num [drValue]
  exact floorNat_cast (by positivity)

include hp

theorem nPw_cast : ((timingOf rate pwD).nPw : ℤ) = ⌊pwD * rate / 1000000⌋ :=
  floorNat_cast (by positivity)

theorem nData0_cast : ((timingOf rate pwD).nData0 : ℤ) = ⌊2 * pwD * rate / 1000000⌋ :=
  floorNat_cast (by positivity)

theorem nData1_cast : ((timingOf rate pwD).nData1 : ℤ) = ⌊4 * pwD * rate / 1000000⌋ :=
  floorNat_cast (by positivity)

theorem nRtcal_cast : ((timingOf rate pwD).nRtcal : ℤ) = ⌊6 * pwD * rate / 1000000⌋ :=
  floorNat_cast (by positivity)

/-- A symbol whose width is a multiple of the pulse width has at least as many samples as the pulse. -/
theorem nPw_le_floorNat {k : ℚ} (hk : 1 ≤ k) : (timingOf rate pwD).nPw ≤ floorNat (k * pwD * rate / 1000000) := by
  have hwidth : pwD ≤ k * pwD := le_mul_of_one_le_left hp.le hk
  exact floorNat_mono (by gcongr)

end Counts

/-- Settles O30: the products are positive, so the truncation of `floorNat` at 0 does nothing. -/
theorem sampleCountsAreExactFloors : Obligations.SampleCountsAreExactFloors := by
  refine ⟨fun rate pwD hr hp => ⟨nPw_cast hr hp, nData0_cast hr hp, nData1_cast hr hp, nRtcal_cast hr hp,
    nDelim_cast hr, fun blf hb => ⟨trcalCount_cast hr hb .dr8, ?_⟩⟩, timingOf_2000000_12⟩
  have hratio : drValue .dr64_3 * rate / blf = 64 * rate / (3 * blf) := by
    rw [drValue, div_mul_eq_mul_div, div_div]
  rw [trcalCount_cast hr hb, hratio]

/-! ## Pulses and symbols (R83 to R86) -/

theorem pulse_getElem?_high {t : Timing} {n k : ℕ} (hk : k < n - t.nPw) : (pulse t n)[k]? = some Level.H := by
  simp [pulse, List.getElem?_append, hk]

theorem pulse_getElem?_low {t : Timing} {n k : ℕ} (hlow : n - t.nPw ≤ k) (hk : k < n) :
    (pulse t n)[k]? = some Level.L := by
  have hin : k - (n - t.nPw) < t.nPw := by omega
  simp [pulse, List.getElem?_append, hlow.not_gt, hin]

theorem pulse_count_low (t : Timing) (n : ℕ) : (pulse t n).count .L = t.nPw := by
  simp [pulse, List.count_replicate]

theorem symbol_eq (t : Timing) (b : Bit) : symbol t b = if b then pulse t t.nData1 else pulse t t.nData0 := by
  cases b <;> rfl

/-- Settles O31: below `n - n_pw` a pulse's first run is read, from there on its second. -/
theorem pulsesAreHighThenLow : Obligations.PulsesAreHighThenLow :=
  ⟨fun _ _ h => ⟨pulse_length h, fun _ => pulse_getElem?_high, fun _ => pulse_getElem?_low⟩,
    fun t => ⟨symbol_eq t false, symbol_eq t true⟩, fun _ _ => ⟨rfl, rfl⟩⟩

/-- The symbols and the RTcal pulse have room for the low part of a pulse (R83). -/
structure PulsesFit (t : Timing) : Prop where
  data0 : t.nPw ≤ t.nData0
  data1 : t.nPw ≤ t.nData1
  rtcal : t.nPw ≤ t.nRtcal

theorem timingOf_pulsesFit {rate pwD : ℚ} (hr : 0 < rate) (hp : 0 < pwD) : PulsesFit (timingOf rate pwD) :=
  ⟨nPw_le_floorNat hr hp (by norm_num), nPw_le_floorNat hr hp (by norm_num), nPw_le_floorNat hr hp (by norm_num)⟩

theorem ConfigAdmitted.pulsesFit {s : State} {rate : ℚ} (h : ConfigAdmitted s rate) :
    PulsesFit (timingOf rate s.cfg.pwD) :=
  timingOf_pulsesFit h.ratePos h.pwPos

theorem PulsesFit.symbol_length {t : Timing} (h : PulsesFit t) (b : Bit) :
    (symbol t b).length = if b then t.nData1 else t.nData0 := by
  cases b
  · exact pulse_length h.data0
  · exact pulse_length h.data1

theorem PulsesFit.encodeBits_length {t : Timing} (h : PulsesFit t) (bits : BitSeq) :
    (encodeBits t bits).length = (bits.map fun b => if b then t.nData1 else t.nData0).sum := by
  induction bits with
  | nil => rfl
  | cons b bits ih => simp [encodeBits_cons, h.symbol_length, ih]

theorem encodeBits_count_low (t : Timing) (bits : BitSeq) : (encodeBits t bits).count .L = bits.length * t.nPw := by
  induction bits with
  | nil => simp [encodeBits]
  | cons b bits ih =>
    have hsymbol : (symbol t b).count .L = t.nPw := pulse_count_low t _
    rw [encodeBits_cons, List.count_append, hsymbol, ih, List.length_cons, Nat.succ_mul, add_comm]

/-- Settles O32: bit by bit, each symbol adds its own length and `n_pw` low samples. -/
theorem encodedLengthIsTheSumOfSymbols : Obligations.EncodedLengthIsTheSumOfSymbols := by
  refine ⟨fun s rate bits h => ⟨h.pulsesFit.encodeBits_length bits, encodeBits_count_low _ bits⟩, fun bits => ?_⟩
  have hfit : PulsesFit (timingOf 2000000 12) := timingOf_pulsesFit (by norm_num) (by norm_num)
  rw [hfit.encodeBits_length, timingOf_2000000_12]

/-! ## PIE_ENCODE (R85) -/

theorem encodeBits_eq_flatten (t : Timing) (bits : BitSeq) :
    encodeBits t bits = (bits.map fun b => if b then pulse t t.nData1 else pulse t t.nData0).flatten := by
  rw [encodeBits, List.flatMap_def, funext (symbol_eq t)]

/-- Settles O33: an admitted configuration gives the counts, and the symbols are the pulses of the bits. -/
theorem pieEncodeCompletes : Obligations.PieEncodeCompletes := by
  intro bits s rate h
  rw [← encodeBits_eq_flatten]
  exact transmits_of_respondWaveform (by rw [exec, execPieEncode, h.admitConfig_eq])

/-! ## The prefixes (R87 to R91) -/

theorem ConfigAdmitted.admitFrameSync_eq {s : State} {rate : ℚ} (h : ConfigAdmitted s rate) :
    admitFrameSync s = .ok (timingOf rate s.cfg.pwD, frameSyncOf s rate) := by
  rw [admitFrameSync, h.admitConfig_eq]
  rfl

theorem ConfigAdmitted.frameSync_length {s : State} {rate : ℚ} (h : ConfigAdmitted s rate) :
    ((frameSyncOf s rate).length : ℤ) =
      ⌊12 * rate / 1000000⌋ + ⌊2 * s.cfg.pwD * rate / 1000000⌋ + ⌊6 * s.cfg.pwD * rate / 1000000⌋ := by
  have hfit := h.pulsesFit
  rw [← nDelim_cast h.ratePos (pwD := s.cfg.pwD), ← nData0_cast h.ratePos h.pwPos, ← nRtcal_cast h.ratePos h.pwPos]
  simp [frameSyncOf, frameSync, delimiter, hfit.symbol_length, pulse_length hfit.rtcal, add_assoc]

theorem preambleOf_eq_frameSyncOf (s : State) (rate blf dr : ℚ) :
    preambleOf s rate blf dr = frameSyncOf s rate ++ pulse (timingOf rate s.cfg.pwD) ⌊dr * rate / blf⌋.toNat :=
  preamble_eq_frameSync _ _

/-- Settles O35: the frame-sync is the delimiter, data0 and RTcal, and a preamble begins with it. -/
theorem pieFramesyncCompletes : Obligations.PieFramesyncCompletes := fun s rate h =>
  ⟨transmits_of_respondWaveform (by rw [exec, execPieFramesync, h.admitFrameSync_eq]), h.frameSync_length,
    preambleOf_eq_frameSyncOf s rate⟩

/-- The TRcal count of an admitted preamble is at least `n_pw` (R89). -/
theorem PreambleAdmitted.nPw_le {s : State} {rate blf dr : ℚ} (h : PreambleAdmitted s rate blf dr) :
    (timingOf rate s.cfg.pwD).nPw ≤ ⌊dr * rate / blf⌋.toNat :=
  Int.toNat_le_toNat h.trcal

theorem PreambleAdmitted.admitPreamble_eq {s : State} {rate blf : ℚ} {d : DivideRatio}
    (h : PreambleAdmitted s rate blf (drValue d)) :
    admitPreamble s blf d = .ok (timingOf rate s.cfg.pwD, preambleOf s rate blf (drValue d)) := by
  have htrcal : admitTrcal (timingOf rate s.cfg.pwD) blf d = .ok ⌊drValue d * rate / blf⌋.toNat := by
    rw [admitTrcal, if_neg h.blfPos.not_ge]
    exact if_neg h.nPw_le.not_gt
  rw [admitPreamble, h.admitConfig_eq]
  simp only [bind, Except.bind, htrcal, preambleOf]

theorem PreambleAdmitted.preamble_length {s : State} {rate blf dr : ℚ} (h : PreambleAdmitted s rate blf dr) :
    ((preambleOf s rate blf dr).length : ℤ) = (frameSyncOf s rate).length + ⌊dr * rate / blf⌋ := by
  have hpulse := h.pulse
  have htrcal := h.trcal
  rw [preambleOf_eq_frameSyncOf, List.length_append, pulse_length h.nPw_le]
  omega

theorem execPiePreamble_of_legal {dr : ℚ} {d : DivideRatio} (hd : divideRatioOf dr = some d) (blf : ℚ) {s : State}
    {t : Timing} {wf : Waveform} (h : admitPreamble s blf d = .ok (t, wf)) :
    execPiePreamble blf dr s = respondWaveform wf (.waveform wf) s := by
  simp only [execPiePreamble, hd, need, h]

theorem execPiePreamble_of_illegal {dr : ℚ} (h8 : dr ≠ 8) (h64 : dr ≠ 64 / 3) (blf : ℚ) (s : State) :
    execPiePreamble blf dr s = raise (.invalid .dr drSet) s := by
  simp only [execPiePreamble, divideRatioOf, if_neg h8, if_neg h64, need]

/-- Settles O34: `dr` is validated before anything of the state is read; a legal one sizes the TRcal pulse behind the
frame-sync. -/
theorem piePreambleCompletes : Obligations.PiePreambleCompletes := by
  refine ⟨fun blf dr s rate hdr h => ?_, fun blf dr s h8 h64 => ?_⟩
  · obtain ⟨d, hd⟩ := exists_of_isSome_eq (divideRatioOf_isSome dr) (by simpa using hdr)
    obtain rfl := divideRatioOf_eq_some_iff.1 hd
    exact ⟨transmits_of_respondWaveform (execPiePreamble_of_legal hd blf h.admitPreamble_eq),
      by rw [h.preamble_length, h.frameSync_length]⟩
  · exact raises_of_raise (execPiePreamble_of_illegal h8 h64 blf s)

end Sys2Proof.Machine
end

section
/-! PROOF. The CommandEncoder against the rows of spec/42_command_encoder.md R113: O36, O41 to O43. Validation runs down the rows
check by check, so it ends with the error of the first that does not hold. -/

namespace Sys2Proof.Machine

/-! ## Validation stops at the first failing check (R101, R113) -/

/-- `x` carries out one check: it passes where the condition `ok` holds, and ends with `e` where it does not. -/
structure Performs {α : Type} (x : Except Failure α) (ok : Bool) (e : Failure) : Prop where
  passes : ok = true → ∃ a, x = .ok a
  fails  : ok = false → x = .error e

/-- `x` ends with the error of the first of the checks that does not hold, where there is one. -/
def FailsBy {α : Type} (x : Except Failure α) (checks : List (Bool × Failure)) : Prop :=
  ∀ e, firstBad checks = some e → x = .error e

theorem FailsBy.nil {α : Type} (x : Except Failure α) : FailsBy x [] := nofun

/-- A check before others: its own error where it fails, else the error of what follows it. -/
theorem Performs.failsBy_bind {α β : Type} {x : Except Failure α} {k : α → Except Failure β} {ok : Bool} {e : Failure}
    {checks : List (Bool × Failure)} (hx : Performs x ok e) (hk : ∀ a, x = .ok a → FailsBy (k a) checks) :
    FailsBy (x >>= k) ((ok, e) :: checks) := by
  intro e' h
  cases ok with
  | false =>
    obtain rfl : e = e' := by simpa [firstBad] using h
    rw [hx.fails rfl]
    rfl
  | true =>
    obtain ⟨a, ha⟩ := hx.passes rfl
    rw [ha]
    exact hk a ha e' h

/-- A check that is followed by a pure step is the same check. -/
theorem Performs.map {α β : Type} {x : Except Failure α} {ok : Bool} {e : Failure} (hx : Performs x ok e) (g : α → β) :
    Performs (x.map g) ok e where
  passes h := by
    obtain ⟨a, ha⟩ := hx.passes h
    exact ⟨g a, by rw [ha, Except.map]⟩
  fails h := by rw [hx.fails h, Except.map]

/-- A step from carrier to field value checks the set of the values it takes. -/
theorem need_performs {α : Type} {o : Option α} {ok : Bool} (h : o.isSome = ok) (f : Field) (al : AllowedSet) :
    Performs (need f al o) ok (.invalid f al) := by
  subst h
  cases o with
  | none => exact ⟨nofun, fun _ => rfl⟩
  | some v => exact ⟨fun _ => ⟨v, rfl⟩, nofun⟩

theorem needMask_performs {n : ℕ} {length : ℤ} (mask : BitSeq) (h : (n : ℤ) = length) :
    Performs (needMask n mask) (decide ((mask.length : ℤ) = length)) .maskLength := by
  subst h
  exact ⟨fun hok => ⟨mask, if_pos (by simpa using hok)⟩, fun hbad => if_neg (by simpa using hbad)⟩

theorem rangeOf_isSome (hi : ℕ) (v : ℤ) : (rangeOf hi v).isSome = decide (0 ≤ v ∧ v ≤ hi) := by
  unfold rangeOf
  split_ifs with h <;> simp [h]

/-- Row 11 of R113. -/
theorem pointerOf_isSome (wPtr : Option ℕ) (v : ℤ) :
    (pointerOf wPtr v).isSome = decide (0 ≤ v ∧ ∀ w ∈ wPtr, v < 2 ^ w) := by
  by_cases h : 0 ≤ v ∧ ∀ w ∈ wPtr, v < 2 ^ w
  · rw [pointerOf_of_legal h, decide_eq_true h, Option.isSome_some]
  · have hbad : ¬ (0 ≤ v ∧ pointerFits wPtr v.toNat = true) := by
      rw [pointerFits_iff]
      rintro ⟨hv, hfit⟩
      lift v to ℕ using hv
      exact h ⟨Int.natCast_nonneg v, fun w hw => by exact_mod_cast hfit w hw⟩
    rw [pointerOf, if_neg hbad, decide_eq_false h, Option.isSome_none]

/-- An operand that is left out is in no legal set (R106). -/
theorem bind_sessionOf_isSome (session : Option String) :
    (session.bind sessionOf).isSome = decide (∃ t ∈ ["s0", "s1", "s2", "s3"], session = some t) := by
  cases session with
  | none => simp
  | some t => simp [sessionOf_isSome]

/-- Rows 1 to 7 of R113. -/
theorem validateQuery_failsBy {dr : ℚ} {m : ℤ} {sel session target : String} {q : ℤ} (trext : Bool) :
    FailsBy (validateQuery dr m trext sel session target q) (queryChecks dr m sel session target q) :=
  (need_performs (divideRatioOf_isSome dr) _ _).failsBy_bind fun _ _ =>
  (need_performs (mFieldOf_isSome m) _ _).failsBy_bind fun _ _ =>
  (need_performs (selOf_isSome sel) _ _).failsBy_bind fun _ _ =>
  (need_performs (sessionOf_isSome session) _ _).failsBy_bind fun _ _ =>
  (need_performs (queryTargetOf_isSome target) _ _).failsBy_bind fun _ _ =>
  (need_performs (rangeOf_isSome 15 q) _ _).failsBy_bind fun _ _ => .nil _

/-- Rows 8 to 14 and 16 of R113; the mask is measured against a Length that has passed. -/
theorem validateSelect_failsBy {wPtr : Option ℕ} {target : String} {action : ℤ} {membank : String}
    {pointer length : ℤ} {mask : BitSeq} {dr : ℚ} (truncate : Bool) :
    FailsBy (validateSelect wPtr target action membank pointer length mask truncate dr)
      (selectChecks wPtr target action membank pointer length mask dr) :=
  (need_performs (selectTargetOf_isSome target) _ _).failsBy_bind fun _ _ =>
  (need_performs (rangeOf_isSome 7 action) _ _).failsBy_bind fun _ _ =>
  (need_performs (memBankOf_isSome membank) _ _).failsBy_bind fun _ _ =>
  (need_performs (pointerOf_isSome wPtr pointer) _ _).failsBy_bind fun _ _ =>
  (need_performs (rangeOf_isSome 255 length) _ _).failsBy_bind fun n hn => by
    obtain ⟨hnonneg, -, rfl⟩ := rangeOf_eq_some_iff.1 (need_eq_ok_iff.1 hn)
    exact (needMask_performs mask (Int.toNat_of_nonneg hnonneg)).failsBy_bind fun _ _ =>
      (need_performs (divideRatioOf_isSome dr) _ _).failsBy_bind fun _ _ => .nil _

/-- Rows 5, 15 and 16 of R113; without a Session field the first is not there. -/
theorem validateQueryAdjust_failsBy {layout : QadjLayout} {session : Option String} {updn : String} {dr : ℚ} :
    FailsBy (validateQueryAdjust layout session updn dr) (queryAdjustChecks layout session updn dr) := by
  cases layout with
  | gen2_9 =>
    exact ((need_performs (bind_sessionOf_isSome session) _ _).map some).failsBy_bind fun _ _ =>
      (need_performs (upDnOf_isSome updn) _ _).failsBy_bind fun _ _ =>
      (need_performs (divideRatioOf_isSome dr) _ _).failsBy_bind fun _ _ => .nil _
  | table_7 =>
    exact (need_performs (upDnOf_isSome updn) _ _).failsBy_bind fun _ _ =>
      (need_performs (divideRatioOf_isSome dr) _ _).failsBy_bind fun _ _ => .nil _

/-- Settles O41: validation runs down rows 1 to 7, and its error is raised whatever the state holds. -/
theorem queryReportsTheFirstBadField : Obligations.QueryReportsTheFirstBadField := by
  intro dr m trext sel session target q blf s e h
  exact raises_of_raise (by rw [exec, execQuery, validateQuery_failsBy trext e h])

/-- Settles O42: validation runs down rows 8 to 13 with the mask behind Length, then DR, under the bound the parameters have. -/
theorem selectReportsTheFirstBadField : Obligations.SelectReportsTheFirstBadField := by
  intro target action membank pointer length mask truncate blf dr s e h
  exact raises_of_raise (by rw [exec, execSelect, validateSelect_failsBy truncate e h])

/-- Settles O43: validation runs down the rows that the layout of the parameters has. -/
theorem queryadjustReportsTheFirstBadField : Obligations.QueryadjustReportsTheFirstBadField := by
  intro session updn blf dr s e h
  exact raises_of_raise (by rw [exec, execQueryadjust, validateQueryAdjust_failsBy e h])

/-! ## EBV (R54, R102) -/

/-- Settles O36: without a bound, the step from carrier to field takes the naturals. -/
theorem ebvCompletes : Obligations.EbvCompletes := by
  refine ⟨fun v s => delivers_of_respond ?_, fun v s hv => raises_of_raise ?_⟩
  · have hv : pointerOf none (v : ℤ) = some v := pointerOf_of_legal ⟨Int.natCast_nonneg v, nofun⟩
    simp only [exec, execEbv, hv, need]
  · have hnone : pointerOf none v = none := if_neg fun h => hv.not_ge h.1
    simp only [exec, execEbv, hnone, need, pointerSet]

end Sys2Proof.Machine
end

section
/-! PROOF. The frames the CommandEncoder sends (spec/42_command_encoder.md R103 to R108): O37 to O40. Legal operands pass validation
with the fields that have the codes of R50 to R52, and the frame of those fields goes out behind its preamble or frame-sync. -/

namespace Sys2Proof.Machine

/-! ## The codes of legal operands (R50, R51, R52) -/

/-- Two tables that agree on their rows: one by the operand, one by the field value it becomes. -/
theorem exists_field_of_mem {α β : Type} {of : α → Option β} {code : β → BitSeq} {table : List (α × BitSeq)}
    (values : List β) (htable : table.map (fun row => (of row.1, row.2)) = values.map (fun v => (some v, code v)))
    {a : α} {C : BitSeq} (h : (a, C) ∈ table) : ∃ v, of a = some v ∧ code v = C := by
  have hrow : (of a, C) ∈ values.map (fun v => (some v, code v)) := htable ▸ List.mem_map_of_mem h
  obtain ⟨v, -, hv⟩ := List.mem_map.1 hrow
  obtain ⟨hof, hcode⟩ := Prod.mk.inj hv
  exact ⟨v, hof.symm, hcode⟩

theorem divideRatioOf_of_mem {dr : ℚ} {C : BitSeq} (h : (dr, C) ∈ [((8 : ℚ), [false]), (64 / 3, [true])]) :
    ∃ d, divideRatioOf dr = some d ∧ drCode d = C :=
  exists_field_of_mem [.dr8, .dr64_3] (by decide +kernel) h

theorem mFieldOf_of_mem {m : ℤ} {C : BitSeq}
    (h : (m, C) ∈ [((1 : ℤ), [false, false]), (2, [false, true]), (4, [true, false]), (8, [true, true])]) :
    ∃ v, mFieldOf m = some v ∧ mCode v = C :=
  exists_field_of_mem [.m1, .m2, .m4, .m8] (by decide) h

theorem selOf_of_mem {t : String} {C : BitSeq}
    (h : (t, C) ∈ [("all", [false, false]), ("~sl", [true, false]), ("sl", [true, true])]) :
    ∃ v, selOf t = some v ∧ selCode v = C :=
  exists_field_of_mem [.all, .notSl, .sl] (by decide) h

theorem sessionOf_of_mem {t : String} {C : BitSeq}
    (h : (t, C) ∈ [("s0", [false, false]), ("s1", [false, true]), ("s2", [true, false]), ("s3", [true, true])]) :
    ∃ v, sessionOf t = some v ∧ sessionCode v = C :=
  exists_field_of_mem [.s0, .s1, .s2, .s3] (by decide) h

theorem queryTargetOf_of_mem {t : String} {C : BitSeq} (h : (t, C) ∈ [("A", [false]), ("B", [true])]) :
    ∃ v, queryTargetOf t = some v ∧ queryTargetCode v = C :=
  exists_field_of_mem [.a, .b] (by decide) h

theorem selectTargetOf_of_mem {t : String} {C : BitSeq}
    (h : (t, C) ∈ [("inv-s0", [false, false, false]), ("inv-s1", [false, false, true]),
      ("inv-s2", [false, true, false]), ("inv-s3", [false, true, true]), ("sl", [true, false, false])]) :
    ∃ v, selectTargetOf t = some v ∧ selectTargetCode v = C :=
  exists_field_of_mem [.invS0, .invS1, .invS2, .invS3, .sl] (by decide) h

theorem memBankOf_of_mem {t : String} {C : BitSeq}
    (h : (t, C) ∈ [("FileType", [false, false]), ("EPC", [false, true]), ("TID", [true, false]),
      ("File_0", [true, true])]) :
    ∃ v, memBankOf t = some v ∧ memBankCode v = C :=
  exists_field_of_mem [.fileType, .epc, .tid, .file0] (by decide) h

theorem upDnOf_of_mem {t : String} {C : BitSeq}
    (h : (t, C) ∈ [("up", [true, true, false]), ("keep", [false, false, false]), ("down", [false, true, true])]) :
    ∃ v, upDnOf t = some v ∧ upDnCode v = C :=
  exists_field_of_mem [.up, .keep, .down] (by decide) h

/-- A legal divide ratio is the value of its field. -/
theorem exists_drValue_eq {dr : ℚ} (h : dr = 8 ∨ dr = 64 / 3) : ∃ d, drValue d = dr := by
  obtain rfl | rfl := h
  · exact ⟨.dr8, rfl⟩
  · exact ⟨.dr64_3, rfl⟩

@[simp] theorem divideRatioOf_drValue (d : DivideRatio) : divideRatioOf (drValue d) = some d :=
  divideRatioOf_eq_some_iff.2 rfl

/-! ## The widths of the fields (R46 to R49) -/

@[simp] theorem drCode_length (d : DivideRatio) : (drCode d).length = 1 := by cases d <;> rfl

@[simp] theorem mCode_length (m : MField) : (mCode m).length = 2 := by cases m <;> rfl

@[simp] theorem flagCode_length (b : Bool) : (flagCode b).length = 1 := rfl

@[simp] theorem selCode_length (v : SelField) : (selCode v).length = 2 := by cases v <;> rfl

@[simp] theorem sessionCode_length (v : Session) : (sessionCode v).length = 2 := by cases v <;> rfl

@[simp] theorem queryTargetCode_length (v : QueryTarget) : (queryTargetCode v).length = 1 := by cases v <;> rfl

@[simp] theorem selectTargetCode_length (v : SelectTarget) : (selectTargetCode v).length = 3 := by cases v <;> rfl

@[simp] theorem memBankCode_length (v : MemBank) : (memBankCode v).length = 2 := by cases v <;> rfl

theorem queryPayload_length (f : QueryFields) : (queryPayload f).length = 17 := by
  simp [queryPayload, opcodeQuery]

theorem queryFrame_length (f : QueryFields) : (queryFrame f).length = 22 := by
  simp [queryFrame, queryPayload_length]

theorem queryRepFrame_length (v : Session) : (queryRepFrame v).length = 4 := by
  simp [queryRepFrame, opcodeQueryRep]

theorem selectFrame_length (choice : Crc16Choice) (f : SelectFields) :
    (selectFrame choice f).length = 37 + 8 * nblk f.pointer + f.mask.length := by
  simp only [selectFrame, selectPayload, opcodeSelect, ebv_length, List.length_append, List.length_cons, List.length_nil,
    selectTargetCode_length, ubits_length, memBankCode_length, flagCode_length, crc16Bits_length]
  omega

/-! ## Sending a frame (R100, R107, R108) -/

/-- A frame behind an admitted preamble. -/
theorem PreambleAdmitted.transmits {i : Instr} {s : State} {rate blf : ℚ} {d : DivideRatio} {fb : BitSeq}
    (h : PreambleAdmitted s rate blf (drValue d)) (hexec : exec i s = transmit (admitPreamble s blf d) fb s) :
    Transmits i s (.frame fb (preambleOf s rate blf (drValue d) ++ renderOf s rate fb))
      (preambleOf s rate blf (drValue d) ++ renderOf s rate fb) :=
  transmits_of_respondWaveform (by rw [hexec, h.admitPreamble_eq]; rfl)

/-- A frame behind an admitted frame-sync. -/
theorem ConfigAdmitted.transmits {i : Instr} {s : State} {rate : ℚ} {fb : BitSeq} (h : ConfigAdmitted s rate)
    (hexec : exec i s = transmit (admitFrameSync s) fb s) :
    Transmits i s (.frame fb (frameSyncOf s rate ++ renderOf s rate fb)) (frameSyncOf s rate ++ renderOf s rate fb) :=
  transmits_of_respondWaveform (by rw [hexec, h.admitFrameSync_eq]; rfl)

/-! ## QUERY (R103) -/

theorem execQuery_of_legal {dr : ℚ} {m : ℤ} {sel session target : String} {q : ℕ} {f : QueryFields}
    (hdr : divideRatioOf dr = some f.dr) (hm : mFieldOf m = some f.m) (hsel : selOf sel = some f.sel)
    (hses : sessionOf session = some f.session) (htgt : queryTargetOf target = some f.target) (hq : q = f.q.toNat)
    (blf : ℚ) (s : State) :
    execQuery dr m f.trext sel session target q blf s = transmit (admitPreamble s blf f.dr) (queryFrame f) s := by
  have hqv : rangeOf 15 q = some f.q.toNat := rangeOf_eq_some_iff.2 ⟨by omega, by omega, by omega⟩
  have hf : validateQuery dr m f.trext sel session target q = .ok f := by
    simp only [validateQuery, hdr, hm, hsel, hses, htgt, hqv, need, bind, Except.bind, BitVec.ofNat_toNat,
      BitVec.setWidth_eq]
  rw [execQuery, hf]

/-- Settles O37: the fields have the codes of the operands, and the frame of the fields is sent behind the preamble. -/
theorem queryTransmitsItsFrame : Obligations.QueryTransmitsItsFrame := by
  intro dr m trext sel session target q blf s rate cDr cM cSel cSession cTarget hdr hm hsel hses htgt hq h
  obtain ⟨d, hd, rfl⟩ := divideRatioOf_of_mem hdr
  obtain ⟨m', hm', rfl⟩ := mFieldOf_of_mem hm
  obtain ⟨sel', hsel', rfl⟩ := selOf_of_mem hsel
  obtain ⟨ses, hses', rfl⟩ := sessionOf_of_mem hses
  obtain ⟨tgt, htgt', rfl⟩ := queryTargetOf_of_mem htgt
  obtain ⟨q, rfl⟩ : ∃ v : BitVec 4, q = v.toNat := ⟨BitVec.ofNat 4 q, by rw [BitVec.toNat_ofNat]; omega⟩
  obtain rfl := divideRatioOf_eq_some_iff.1 hd
  let f : QueryFields := ⟨d, m', trext, sel', ses, tgt, q⟩
  exact ⟨h.transmits (execQuery_of_legal (f := f) hd hm' hsel' hses' htgt' rfl blf s), queryPayload_length f,
    queryFrame_length f⟩

/-! ## QUERYREP (R104) -/

theorem execQueryrep_of_legal {session : String} {v : Session} (h : sessionOf session = some v) (s : State) :
    execQueryrep session s = transmit (admitFrameSync s) (queryRepFrame v) s := by
  simp only [execQueryrep, h, need]

theorem execQueryrep_of_illegal {session : String} (h : session ∉ ["s0", "s1", "s2", "s3"]) (s : State) :
    execQueryrep session s = raise (.invalid .session sessionSet) s := by
  rw [execQueryrep, (need_performs (sessionOf_isSome session) .session sessionSet).fails (decide_eq_false h)]

/-- Settles O38: a legal session has its code, and any other fails the one check there is. -/
theorem queryrepTransmitsItsFrame : Obligations.QueryrepTransmitsItsFrame := by
  refine ⟨fun session s rate C hses h => ?_, fun session s hses => raises_of_raise (execQueryrep_of_illegal hses s)⟩
  obtain ⟨v, hv, rfl⟩ := sessionOf_of_mem hses
  refine ⟨h.transmits (execQueryrep_of_legal hv s), queryRepFrame_length v, ?_⟩
  rintro rfl
  cases hv
  rfl

/-! ## SELECT (R105) -/

theorem execSelect_of_legal {target : String} {action : ℕ} {membank : String} {f : SelectFields} {s : State}
    (htgt : selectTargetOf target = some f.target) (haction : action = f.action.toNat)
    (hbank : memBankOf membank = some f.membank) (hptr : ∀ w ∈ s.params.wPtr, f.pointer < 2 ^ w)
    (hmask : f.mask.length ≤ 255) (blf : ℚ) (d : DivideRatio) :
    execSelect target action membank f.pointer f.mask.length f.mask f.truncate blf (drValue d) s =
      transmit (admitPreamble s blf d) (selectFrame s.params.crc16 f) s := by
  have hav : rangeOf 7 action = some f.action.toNat := rangeOf_eq_some_iff.2 ⟨by omega, by omega, by omega⟩
  have hlv : rangeOf 255 f.mask.length = some f.mask.length := rangeOf_eq_some_iff.2 ⟨by omega, by omega, by omega⟩
  have hpv : pointerOf s.params.wPtr f.pointer = some f.pointer :=
    pointerOf_of_legal ⟨by omega, fun w hw => by exact_mod_cast hptr w hw⟩
  have hmv : needMask f.mask.length f.mask = .ok f.mask := if_pos rfl
  have hf : validateSelect s.params.wPtr target action membank f.pointer f.mask.length f.mask f.truncate (drValue d) =
      .ok (f, d) := by
    simp only [validateSelect, htgt, hav, hbank, hpv, hlv, hmv, divideRatioOf_drValue, need, bind, Except.bind,
      BitVec.ofNat_toNat, BitVec.setWidth_eq]
  rw [execSelect, hf]

/-- Settles O39: the frame of the operands' fields is sent; its pointer and mask give it its length. -/
theorem selectTransmitsItsFrame : Obligations.SelectTransmitsItsFrame := by
  intro target action membank pointer mask truncate blf dr s rate cTarget cBank htgt hbank haction hmask hptr hdr h
  obtain ⟨tgt, htgt', rfl⟩ := selectTargetOf_of_mem htgt
  obtain ⟨bank, hbank', rfl⟩ := memBankOf_of_mem hbank
  obtain ⟨d, rfl⟩ := exists_drValue_eq hdr
  obtain ⟨action, rfl⟩ : ∃ v : BitVec 3, action = v.toNat :=
    ⟨BitVec.ofNat 3 action, by rw [BitVec.toNat_ofNat]; omega⟩
  let f : SelectFields := ⟨tgt, action, bank, pointer, mask, truncate⟩
  exact ⟨h.transmits (execSelect_of_legal (f := f) htgt' rfl hbank' hptr hmask blf d), selectFrame_length _ f⟩

/-! ## QUERYADJUST (R106) -/

theorem execQueryadjust_of_legal {session : Option String} {updn : String} {f : QueryAdjustFields} {s : State}
    (hses : validateAdjustSession s.params.qadjLayout session = .ok f.session) (hu : upDnOf updn = some f.updn)
    (blf : ℚ) (d : DivideRatio) :
    execQueryadjust session updn blf (drValue d) s = transmit (admitPreamble s blf d) (queryAdjustFrame f) s := by
  have hf : validateQueryAdjust s.params.qadjLayout session updn (drValue d) = .ok (f, d) := by
    simp only [validateQueryAdjust, hses, hu, divideRatioOf_drValue, need, bind, Except.bind]
  rw [execQueryadjust, hf]

/-- Settles O40: the layout decides whether there is a Session field; what passes is sent behind the preamble. -/
theorem queryadjustTransmitsItsFrame : Obligations.QueryadjustTransmitsItsFrame := by
  intro session updn blf dr s rate C hu hdr h
  obtain ⟨u, hu', rfl⟩ := upDnOf_of_mem hu
  obtain ⟨d, rfl⟩ := exists_drValue_eq hdr
  refine ⟨?_, fun hlayout => ?_⟩
  · rintro token C hlayout rfl hses
    obtain ⟨v, hv, rfl⟩ := sessionOf_of_mem hses
    have hvalid : validateAdjustSession s.params.qadjLayout (some token) = .ok (some v) := by
      simp [hlayout, validateAdjustSession, hv, need, Except.map]
    exact h.transmits (execQueryadjust_of_legal (f := ⟨some v, u⟩) hvalid hu' blf d)
  · have hvalid : validateAdjustSession s.params.qadjLayout session = .ok none := by rw [hlayout, validateAdjustSession]
    exact h.transmits (execQueryadjust_of_legal (f := ⟨none, u⟩) hvalid hu' blf d)

end Sys2Proof.Machine
end

section
/-! PROOF. The FrameExtractor (spec/43_frame_extractor.md): O46 to O48. The low indices are a strictly ascending list and the markers a
sublist of it, so what R132 and R141 say of list places can be said of indices; the loop of R130 carves the windows of the starts that
the drop rule of R135 keeps. -/

namespace Sys2Proof.Machine

/-! ## Low indices (R131) -/

theorem mem_lowsFrom {low : IQ → Bool} {i k : ℕ} {zs : Samples} :
    k ∈ lowsFrom low i zs ↔ ∃ j z, k = i + j ∧ zs[j]? = some z ∧ low z = true := by
  induction zs generalizing i with
  | nil => simp [lowsFrom]
  | cons x zs ih =>
    have hhead : k ∈ lowsFrom low i (x :: zs) ↔ k = i ∧ low x = true ∨ k ∈ lowsFrom low (i + 1) zs := by
      rw [lowsFrom]
      split <;> simp [*]
    rw [hhead, ih]
    constructor
    · rintro (⟨rfl, hx⟩ | ⟨j, z, rfl, hz⟩)
      · exact ⟨0, x, rfl, rfl, hx⟩
      · exact ⟨j + 1, z, by omega, hz⟩
    · rintro ⟨_ | j, z, rfl, hz, hlow⟩
      · cases hz
        exact .inl ⟨rfl, hlow⟩
      · exact .inr ⟨j, z, by omega, hz, hlow⟩

theorem mem_lowIndices {num : Numerics} {capture : Samples} {k : ℕ} :
    k ∈ lowIndices num capture ↔ ∃ z, capture[k]? = some z ∧ num.low z = true := by
  simp [lowIndices, mem_lowsFrom]

theorem lowsFrom_pairwise (low : IQ → Bool) (i : ℕ) (zs : Samples) : (lowsFrom low i zs).Pairwise (· < ·) := by
  induction zs generalizing i with
  | nil => exact .nil
  | cons x zs ih =>
    rw [lowsFrom]
    split
    · refine .cons (fun k hk => ?_) (ih (i + 1))
      obtain ⟨j, -, rfl, -⟩ := mem_lowsFrom.1 hk
      omega
    · exact ih (i + 1)

theorem lowIndices_pairwise (num : Numerics) (capture : Samples) : (lowIndices num capture).Pairwise (· < ·) :=
  lowsFrom_pairwise num.low 0 capture

/-- R131's threshold, with squares for products. -/
theorem numericsExact_low_iff {z : IQ} : numericsExact.low z = true ↔ z.re ^ 2 + z.im ^ 2 < 1 / 400 := by
  simp [numericsExact, IQ.abs2, sq]

/-! ## Markers (R132, R141) -/

/-- `j` is the least index of `Lo` above `k`. -/
def IsNextIn (Lo : List ℕ) (k j : ℕ) : Prop :=
  k < j ∧ j ∈ Lo ∧ ∀ i, k < i → i < j → i ∉ Lo

/-- In an ascending list the second index is the next one after the first. -/
theorem isNextIn_head_iff {a b j : ℕ} {Lo : List ℕ} (h : (a :: b :: Lo).Pairwise (· < ·)) :
    IsNextIn (a :: b :: Lo) a j ↔ j = b := by
  have hab : a < b := List.rel_of_pairwise_cons h List.mem_cons_self
  have hb : ∀ i ∈ Lo, b < i := fun _ => List.rel_of_pairwise_cons h.of_cons
  refine ⟨fun ⟨haj, hj, hbetween⟩ => ?_, ?_⟩
  · have hbj : ¬ b < j := fun hlt => hbetween b hab hlt (by simp)
    have hmem : j = b ∨ j ∈ Lo := by simpa [haj.ne'] using hj
    exact hmem.resolve_right fun hj => hbj (hb j hj)
  · rintro rfl
    refine ⟨hab, by simp, fun i hai hij hi => ?_⟩
    have hmem : i ∈ Lo := by simpa [hai.ne', hij.ne] using hi
    exact hij.asymm (hb i hmem)

/-- An index that is not above `k` has no say in what comes next after `k`. -/
theorem isNextIn_cons_iff {a k j : ℕ} {Lo : List ℕ} (h : a ≤ k) : IsNextIn (a :: Lo) k j ↔ IsNextIn Lo k j := by
  have hmem : ∀ i, k < i → (i ∈ a :: Lo ↔ i ∈ Lo) := fun i hi => by simp [(h.trans_lt hi).ne']
  refine and_congr_right fun hj => and_congr (hmem j hj) (forall₃_congr fun i hi _ => not_congr (hmem i hi))

/-- R132, with the next index of the list for its next place. -/
theorem mem_gapStarts_iff {g k : ℕ} {Lo : List ℕ} (h : Lo.Pairwise (· < ·)) :
    k ∈ gapStarts g Lo ↔ k ∈ Lo ∧ ∃ j, IsNextIn Lo k j ∧ g < j - k := by
  induction Lo with
  | nil => simp [gapStarts]
  | cons a Lo ih =>
    cases Lo with
    | nil =>
      simp only [gapStarts, List.mem_singleton, List.not_mem_nil, false_iff]
      rintro ⟨rfl, j, ⟨hlt, hj, -⟩, -⟩
      exact hlt.ne' (List.mem_singleton.1 hj)
    | cons b Lo =>
      have hab : ∀ i ∈ b :: Lo, a < i := fun _ => List.rel_of_pairwise_cons h
      have hhead : k ∈ gapStarts g (a :: b :: Lo) ↔ k = a ∧ g < b - a ∨ k ∈ gapStarts g (b :: Lo) := by
        rw [gapStarts]
        split <;> simp [*]
      rw [hhead, ih h.of_cons, List.mem_cons (b := a), or_and_right]
      refine or_congr (and_congr_right ?_) (and_congr_right fun hk => ?_)
      · rintro rfl
        simp [isNextIn_head_iff h]
      · simp only [isNextIn_cons_iff (hab k hk).le]

theorem gapStarts_sublist (g : ℕ) (Lo : List ℕ) : (gapStarts g Lo).Sublist Lo.dropLast := by
  induction Lo with
  | nil => exact .slnil
  | cons a Lo ih =>
    cases Lo with
    | nil => exact .slnil
    | cons b Lo =>
      rw [gapStarts, List.dropLast_cons_cons]
      split
      · exact ih.cons_cons a
      · exact ih.cons a

/-- In an ascending list the last index is the one with none above it. -/
theorem getLast?_eq_some_iff_of_ascending {k : ℕ} {Lo : List ℕ} (h : Lo.Pairwise (· < ·)) :
    Lo.getLast? = some k ↔ k ∈ Lo ∧ ∀ i, k < i → i ∉ Lo := by
  obtain rfl | ⟨init, a, rfl⟩ := Lo.eq_nil_or_concat'
  · simp
  · have hinit : ∀ i ∈ init, i < a := fun i hi => (List.pairwise_append.1 h).2.2 i hi a (by simp)
    rw [List.getLast?_concat, Option.some_inj]
    constructor
    · rintro rfl
      refine ⟨by simp, fun i hi hmem => ?_⟩
      have hlt : i < a := hinit i (by simpa [hi.ne'] using hmem)
      exact hi.asymm hlt
    · rintro ⟨hk, hlast⟩
      have hka : ¬ k < a := fun hlt => hlast a hlt (by simp)
      have hmem : k ∈ init ∨ k = a := by simpa using hk
      exact (hmem.resolve_left fun hi => hka (hinit k hi)).symm

theorem tailMarker_eq (tail : Bool) (g len : ℕ) (Lo : List ℕ) :
    tailMarker tail g len Lo = Lo.getLast?.toList.filter (fun a => tail && decide (g < len - a)) := by
  cases tail <;> cases hlast : Lo.getLast? <;> simp [tailMarker, hlast, List.filter_cons]

/-- R141, with "no index above" for "the last place". -/
theorem mem_tailMarker_iff {tail : Bool} {g len k : ℕ} {Lo : List ℕ} (h : Lo.Pairwise (· < ·)) :
    k ∈ tailMarker tail g len Lo ↔ k ∈ Lo ∧ tail = true ∧ (∀ i, k < i → i ∉ Lo) ∧ g < len - k := by
  rw [tailMarker_eq, List.mem_filter, Option.mem_toList, getLast?_eq_some_iff_of_ascending h, Bool.and_eq_true,
    decide_eq_true_iff]
  tauto

/-- The markers are low indices in the order of the low indices. -/
theorem markers_sublist (p : Params) (g : ℕ) (capture : Samples) :
    (markers p g capture).Sublist (lowIndices (numericsOf p.numerics) capture) := by
  rw [markers, tailMarker_eq]
  generalize lowIndices (numericsOf p.numerics) capture = Lo
  have hsplit : Lo.dropLast ++ Lo.getLast?.toList = Lo := by
    obtain rfl | ⟨init, a, rfl⟩ := Lo.eq_nil_or_concat' <;> simp
  simpa only [hsplit] using (gapStarts_sublist g Lo).append (List.filter_sublist (l := Lo.getLast?.toList))

/-- Settles O47: in an ascending list, next place and last place are next index and no index above. -/
theorem markersStartLongGaps : Obligations.MarkersStartLongGaps := by
  refine ⟨fun p g capture => ⟨fun k => ?_, ?_⟩, fun z => numericsExact_low_iff⟩
  · have hasc := lowIndices_pairwise (numericsOf p.numerics) capture
    simp only [← mem_lowIndices]
    rw [markers, List.mem_append, mem_gapStarts_iff hasc, mem_tailMarker_iff hasc, ← and_or_left]
    simp only [IsNextIn, and_assoc]
  · exact (lowIndices_pairwise _ _).sublist (markers_sublist p g capture)

/-! ## Windows (R133 to R136) -/

/-- The two windows of a start, as R133 and R134 cut them out of the capture. -/
def windowAt (m : Memory) (n start : ℕ) : Window where
  start := start
  frame := (m.capture.drop start).take n
  dcWindow := (m.capture.drop (start - nDc)).take nDc

theorem carveAt_eq_windowAt {m : Memory} {n start : ℕ} (h : dropped (capLen m) n start = false) :
    carveAt m n start = .ok (windowAt m n start) := by
  obtain ⟨w, hw⟩ := carveAt_of_kept h
  obtain ⟨rfl, hframe, hdc⟩ := carveAt_eq_ok hw
  rw [hw, windowAt, ← (memRead_eq_some_iff.1 hframe).2, ← (memRead_eq_some_iff.1 hdc).2]

/-- The starts `m + n_t1` of the markers that R135 does not drop. -/
def keptStarts (len nT1 n : ℕ) (ks : List ℕ) : List ℕ :=
  (ks.map (· + nT1)).filter (fun start => !dropped len n start)

/-- What R135 keeps, with its two bounds written out. -/
theorem not_dropped_eq (len n start : ℕ) :
    (!dropped len n start) = (decide (start + n < len) && decide (200 ≤ start)) := by
  rw [Bool.eq_iff_iff, Bool.not_eq_true', dropped_eq_false_iff, Bool.and_eq_true, decide_eq_true_iff, decide_eq_true_iff, nDc]

/-- The loop of R130 gives the windows of the kept starts, in order. -/
theorem carve_eq (m : Memory) (nT1 n : ℕ) (ks : List ℕ) :
    carve m nT1 n ks = .ok ((keptStarts (capLen m) nT1 n ks).map (windowAt m n)) := by
  induction ks with
  | nil => rfl
  | cons k ks ih =>
    rw [carve]
    split
    · rename_i hdrop
      simp [ih, keptStarts, hdrop]
    · rename_i hkept
      rw [Bool.not_eq_true] at hkept
      simp [carveAt_eq_windowAt hkept, ih, Except.map, keptStarts, hkept]

theorem execExtract_of_nat (g nT1 n : ℕ) (s : State) :
    execExtract g nT1 n s = storeWindows
      ((keptStarts (capLen s.mem) nT1 n (markers s.params g s.mem.capture)).map (windowAt s.mem n)) s := by
  have hnat : ¬ ((g : ℤ) < 0 ∨ (nT1 : ℤ) < 0 ∨ (n : ℤ) < 0) := by omega
  simp only [execExtract, if_neg hnat, Int.toNat_natCast, carve_eq]

/-- Settles O46: the loop succeeds with the windows of the kept starts, and its end stores and delivers their parts. -/
theorem extractCarvesTheMarkedWindows : Obligations.ExtractCarvesTheMarkedWindows := by
  intro g nT1 n s starts frames dcs
  have hstarts : keptStarts (capLen s.mem) nT1 n (markers s.params g s.mem.capture) = starts :=
    List.filter_congr fun start _ => not_dropped_eq _ n start
  have hcarve := carve_eq s.mem nT1 n (markers s.params g s.mem.capture)
  have hlen := carve_lengths hcarve
  have hexec : exec (.extract g nT1 n) s = storeWindows (starts.map (windowAt s.mem n)) s :=
    hstarts ▸ execExtract_of_nat g nT1 n s
  have hframes : (starts.map (windowAt s.mem n)).map (·.frame) = frames := by simp [frames, windowAt]
  have hdcs : (starts.map (windowAt s.mem n)).map (·.dcWindow) = dcs := by simp [dcs, windowAt, nDc]
  have hids : (starts.map (windowAt s.mem n)).map (·.start) = starts := by simp [windowAt, Function.comp_def]
  rw [storeWindows, hframes, hdcs, hids] at hexec
  rw [hstarts] at hlen
  refine ⟨⟨_, hexec, finish_endsWith rfl rfl rfl, rfl, rfl, rfl, rfl, rfl⟩, ?_, ?_⟩
  · rw [← hframes]
    exact List.forall_mem_map.2 fun w hw => (hlen w hw).1
  · rw [← hdcs]
    exact List.forall_mem_map.2 fun w hw => (hlen w hw).2

/-- Settles O48: the test of the operands' signs comes before everything else. -/
theorem extractRefusesNegativeOperands : Obligations.ExtractRefusesNegativeOperands :=
  fun _ _ _ _ h => if_pos h

end Sys2Proof.Machine
end

section
/-! PROOF. The FrameSynchronizer (spec/44_frame_synchronizer.md): O49 to O56. The peak is characterised by comparisons with every
other correlation value, so a claim about it needs no run of the search; the samples under the reference are given by the places of
its ones. -/

namespace Sys2Proof.Machine

/-! ## The running maximum (R27, R150) -/

/-- `values` holds `best` at `p`, nothing larger, and before `p` only smaller values. -/
structure IsFirstMax (values : List ℚ) (p : ℕ) (best : ℚ) : Prop where
  at_peak : values[p]? = some best
  le : ∀ (j : ℕ) (v : ℚ), values[j]? = some v → v ≤ best
  lt : ∀ (j : ℕ) (v : ℚ), values[j]? = some v → j < p → v < best

theorem IsFirstMax.unique {values : List ℚ} {p q : ℕ} {a b : ℚ} (hp : IsFirstMax values p a)
    (hq : IsFirstMax values q b) : p = q := by
  rcases lt_trichotomy p q with h | h | h
  · exact absurd (hq.lt p a hp.at_peak h) (hp.le q b hq.at_peak).not_gt
  · exact h
  · exact absurd (hp.lt q b hq.at_peak h) (hq.le p a hp.at_peak).not_gt

theorem getElem?_concat_cases {l : List ℚ} {v w : ℚ} {j : ℕ} (h : (l ++ [v])[j]? = some w) :
    l[j]? = some w ∨ j = l.length ∧ w = v := by
  rcases lt_or_ge j l.length with hj | hj
  · exact .inl (by rwa [List.getElem?_append_left hj] at h)
  · rw [List.getElem?_append_right hj, List.getElem?_singleton, Option.ite_none_right_eq_some, Option.some_inj] at h
    exact .inr ⟨by omega, h.2.symm⟩

/-- A strictly larger value becomes the maximum. -/
theorem IsFirstMax.concat_of_lt {seen : List ℚ} {p : ℕ} {best v : ℚ} (h : IsFirstMax seen p best) (hv : best < v) :
    IsFirstMax (seen ++ [v]) seen.length v where
  at_peak := List.getElem?_concat_length
  le j w hw := by
    rcases getElem?_concat_cases hw with hw | ⟨-, rfl⟩
    · exact (h.le j w hw).trans hv.le
    · exact le_rfl
  lt j w hw hj := by
    rw [List.getElem?_append_left hj] at hw
    exact (h.le j w hw).trans_lt hv

/-- A value that is not larger leaves the maximum where it is. -/
theorem IsFirstMax.concat_of_le {seen : List ℚ} {p : ℕ} {best v : ℚ} (h : IsFirstMax seen p best) (hv : v ≤ best) :
    IsFirstMax (seen ++ [v]) p best := by
  have hp : p < seen.length := (List.getElem?_eq_some_iff.1 h.at_peak).1
  refine ⟨by rw [List.getElem?_append_left hp, h.at_peak], fun j w hw => ?_, fun j w hw hj => ?_⟩
  · rcases getElem?_concat_cases hw with hw | ⟨-, rfl⟩
    · exact h.le j w hw
    · exact hv
  · rw [List.getElem?_append_left (hj.trans hp)] at hw
    exact h.lt j w hw hj

/-- The scan keeps the maximum of what it has seen. -/
theorem argmaxFrom_isFirstMax {seen : List ℚ} {p : ℕ} {best : ℚ} (h : IsFirstMax seen p best) (rest : List ℚ) :
    ∃ b, IsFirstMax (seen ++ rest) (argmaxFrom p best seen.length rest) b := by
  induction rest generalizing seen p best with
  | nil => exact ⟨best, by simpa [argmaxFrom] using h⟩
  | cons v rest ih =>
    have hlen : seen.length + 1 = (seen ++ [v]).length := by simp
    rw [argmaxFrom, List.append_cons, hlen]
    split
    · exact ih (h.concat_of_lt ‹_›)
    · exact ih (h.concat_of_le (not_lt.1 ‹_›))

theorem argmax_isFirstMax {values : List ℚ} (h : values ≠ []) : ∃ b, IsFirstMax values (argmax values) b := by
  cases values with
  | nil => exact absurd rfl h
  | cons v vs =>
    have hhead : IsFirstMax [v] 0 v :=
      ⟨rfl, fun j w hw => (List.mem_singleton.1 (List.mem_of_getElem? hw)).le, fun j _ _ hj => absurd hj j.not_lt_zero⟩
    exact argmaxFrom_isFirstMax hhead vs

/-! ## The peak (R150) -/

/-- The magnitude of correlation value `i` of a frame's search window. -/
def corrMag (num : Numerics) (frame : Samples) (i : ℕ) : ℚ := num.mag (num.corr (frame.take 400) i)

theorem corrMags_getElem?_eq_some_iff {num : Numerics} {frame : Samples} {j : ℕ} {v : ℚ} :
    ((correlation num (frame.take 400)).map num.mag)[j]? = some v ↔ j < 400 ∧ corrMag num frame j = v := by
  rw [List.getElem?_map, Option.map_eq_some_iff]
  constructor
  · rintro ⟨z, hz, rfl⟩
    have hj : j < 400 := by simpa using (List.getElem?_eq_some_iff.1 hz).1
    rw [correlation_getElem? hj, Option.some_inj] at hz
    exact ⟨hj, congrArg num.mag hz⟩
  · rintro ⟨hj, rfl⟩
    exact ⟨_, correlation_getElem? hj, rfl⟩

theorem isFirstMax_corrMags_iff {num : Numerics} {frame : Samples} {p : ℕ} :
    (∃ b, IsFirstMax ((correlation num (frame.take 400)).map num.mag) p b) ↔
      p < 400 ∧ ∀ j < 400, corrMag num frame j ≤ corrMag num frame p ∧
        (j < p → corrMag num frame j < corrMag num frame p) := by
  constructor
  · rintro ⟨b, hb⟩
    obtain ⟨hp, rfl⟩ := corrMags_getElem?_eq_some_iff.1 hb.at_peak
    exact ⟨hp, fun j hj => ⟨hb.le j _ (corrMags_getElem?_eq_some_iff.2 ⟨hj, rfl⟩),
      hb.lt j _ (corrMags_getElem?_eq_some_iff.2 ⟨hj, rfl⟩)⟩⟩
  · rintro ⟨hp, hmax⟩
    refine ⟨_, corrMags_getElem?_eq_some_iff.2 ⟨hp, rfl⟩, fun j v hv => ?_, fun j v hv => ?_⟩
    all_goals obtain ⟨hj, rfl⟩ := corrMags_getElem?_eq_some_iff.1 hv
    · exact (hmax j hj).1
    · exact (hmax j hj).2

/-- The peak is where no magnitude is larger and every earlier one is smaller. -/
theorem peakIndex_eq_iff {num : Numerics} {frame : Samples} {p : ℕ} : peakIndex num frame = p ↔
    p < 400 ∧ ∀ j < 400, corrMag num frame j ≤ corrMag num frame p ∧
      (j < p → corrMag num frame j < corrMag num frame p) := by
  obtain ⟨a, ha⟩ := argmax_isFirstMax (values := (correlation num (frame.take 400)).map num.mag)
    (List.ne_nil_of_length_pos (by simp))
  rw [← isFirstMax_corrMags_iff]
  constructor
  · rintro rfl
    exact ⟨a, ha⟩
  · rintro ⟨b, hb⟩
    exact ha.unique hb

theorem peakIndex_lt (num : Numerics) (frame : Samples) : peakIndex num frame < 400 :=
  (peakIndex_eq_iff.1 rfl).1

/-- Settles O50: the characterisation of the peak, read at its own index. -/
theorem peakIsTheLeastLargest : Obligations.PeakIsTheLeastLargest := by
  intro num frame values
  obtain ⟨hlt, hmax⟩ := peakIndex_eq_iff.1 (rfl : peakIndex num frame = _)
  refine ⟨hlt, _, corrMags_getElem?_eq_some_iff.2 ⟨hlt, rfl⟩, fun j v hv => ?_⟩
  obtain ⟨hj, rfl⟩ := corrMags_getElem?_eq_some_iff.1 hv
  exact hmax j hj

/-! ## SYNC (R145, R151, R153) -/

theorem synchronize_eq_ok_iff {num : Numerics} {frame : Samples} {start : ℕ} {z : IQ} :
    synchronize num frame = .ok (start, z) ↔ 400 ≤ frame.length ∧ start + 300 ≤ frame.length ∧
      peakIndex num frame - 150 = start ∧ channelEstimate num frame start = z := by
  unfold synchronize frameStart nWin nRef nOff
  split
  · exact iff_of_false nofun fun ⟨h400, _⟩ => by omega
  · split
    · exact iff_of_false nofun fun ⟨_, hfit, hstart, _⟩ => by omega
    · rename_i h1 h2
      rw [not_lt] at h1 h2
      simp only [Except.ok.injEq, Prod.mk.injEq, h1, true_and]
      constructor
      · rintro ⟨rfl, rfl⟩
        exact ⟨h2, rfl, rfl⟩
      · rintro ⟨-, rfl, rfl⟩
        exact ⟨rfl, rfl⟩

theorem synchronize_of_few {num : Numerics} {frame : Samples}
    (h : frame.length < 400 ∨ frame.length < peakIndex num frame - 150 + 300) :
    synchronize num frame = .error .tooFewSamples := by
  cases hs : synchronize num frame with
  | error e => rw [synchronize_raises hs]
  | ok r =>
    obtain ⟨h400, hfit, hstart, -⟩ := synchronize_eq_ok_iff.1 (hs : _ = Except.ok (r.1, r.2))
    omega

section
variable {arg : FrameArg} {frame : Samples} {s : State} (hf : frameOf s.mem arg = .ok frame)
include hf

theorem exec_sync_of_ok {start : ℕ} {z : IQ} (h : synchronize (numericsOf s.params.numerics) frame = .ok (start, z)) :
    exec (.sync arg) s = respond (.sync start z) s := by
  simp only [exec, execSync, hf, h]

theorem exec_sync_of_error {e : Failure} (h : synchronize (numericsOf s.params.numerics) frame = .error e) :
    exec (.sync arg) s = raise e s := by
  simp only [exec, execSync, hf, h]

/-- SYNC delivers exactly what the synchronization of its frame gives. -/
theorem delivers_sync_iff {start : ℕ} {z : IQ} : Delivers (.sync arg) s (.sync start z) ↔
    synchronize (numericsOf s.params.numerics) frame = .ok (start, z) := by
  refine ⟨?_, fun h => delivers_of_respond (exec_sync_of_ok hf h)⟩
  rintro ⟨t, ht, hend, -⟩
  have hout := hend.outbox
  cases hs : synchronize (numericsOf s.params.numerics) frame with
  | error e =>
    rw [exec_sync_of_error hf hs, raise_eq_next_iff] at ht
    simp [ht, okResponse] at hout
  | ok r =>
    rw [exec_sync_of_ok hf (hs : _ = Except.ok (r.1, r.2)), respond_eq_next_iff] at ht
    obtain ⟨rfl, rfl⟩ : r.1 = start ∧ r.2 = z := by simpa [ht, okResponse] using hout
    rfl

end

theorem frameOf_stored {m : Memory} {k : ℕ} {frame : Samples} (h : m.frames[k]? = some frame) :
    frameOf m (.stored k) = .ok frame := by
  simp only [frameOf, h]

/-- Settles O51: the start is below 250 because the peak is below 400, and the two length tests are R153's. -/
theorem syncCompletesOrReportsTooFewSamples : Obligations.SyncCompletesOrReportsTooFewSamples := by
  intro arg frame s num start harg
  have hf : frameOf s.mem arg = .ok frame := by
    rcases harg with rfl | ⟨k, rfl, hk⟩
    · rfl
    · exact frameOf_stored hk
  have hpeak := peakIndex_lt num frame
  have hstart : start ≤ 249 := by omega
  have hok : 400 ≤ frame.length → start + 300 ≤ frame.length →
      Delivers (.sync arg) s (.sync start (channelEstimate num frame start)) := fun h400 hfit =>
    (delivers_sync_iff hf).2 (synchronize_eq_ok_iff.2 ⟨h400, hfit, rfl, rfl⟩)
  exact ⟨hstart, hok, fun h => hok (by omega) (by omega),
    fun h => raises_of_raise (exec_sync_of_error hf (synchronize_of_few h))⟩

/-- Settles O52: the lookup in the frame store comes before everything else. -/
theorem syncOfAMissingEntryIsRefused : Obligations.SyncOfAMissingEntryIsRefused := by
  intro k s h
  simp only [exec, execSync, frameOf, List.getElem?_eq_none h]

/-! ## The reference (R146) -/

theorem ref_getElem? : ∀ n < 300, ref[n]? = some (decide (n ∈ onesOfReference)) := by decide +kernel

theorem ref_repeats_pat : ∀ n < 300, ref[n]? = pat[n / 25]? := by decide +kernel

theorem onesOfReference_card : onesOfReference.card = 150 := by decide +kernel

theorem lt_of_mem_onesOfReference {n : ℕ} : n ∈ onesOfReference → n < 300 := by
  simp only [onesOfReference, Finset.mem_union, Finset.mem_Icc]
  omega

theorem ref_getElem?_eq_true_iff {n : ℕ} : ref[n]? = some true ↔ n ∈ onesOfReference := by
  rcases lt_or_ge n 300 with h | h
  · simp [ref_getElem? n h]
  · have hout : n ∉ onesOfReference := fun hn => (lt_of_mem_onesOfReference hn).not_ge h
    simp [hout, h]

/-- The places of the ones, in order. -/
def onesInOrder : List ℕ := (List.range 300).filter (fun n => decide (n ∈ onesOfReference))

theorem mem_onesInOrder {n : ℕ} : n ∈ onesInOrder ↔ n ∈ onesOfReference := by
  simpa [onesInOrder] using lt_of_mem_onesOfReference

theorem onesInOrder_sum (f : ℕ → ℚ) : (onesInOrder.map f).sum = ∑ n ∈ onesOfReference, f n := by
  have hset : onesInOrder.toFinset = onesOfReference := by
    ext n
    rw [List.mem_toFinset, mem_onesInOrder]
  rw [← hset]
  exact (List.sum_toFinset f (List.nodup_range.filter _)).symm

theorem onesInOrder_length : onesInOrder.length = 150 := by decide +kernel

/-! ## Exact arithmetic (R202) -/

theorem numericsOf_exact : numericsOf .exact = numericsExact := rfl

theorem numericsExact_corr (W : Samples) (i : ℕ) :
    numericsExact.corr W i = IQ.sum (underOnes ref ((padWindow W).drop i)) := rfl

theorem channelEstimate_exact (frame : Samples) (start : ℕ) :
    channelEstimate numericsExact frame start = (IQ.sum (underOnes ref (frame.drop start))).divRat 150 := rfl

/-- The samples that correlation value `i` of a frame's search window sums. -/
def windowUnderOnes (frame : Samples) (i : ℕ) : Samples :=
  underOnes ref ((padWindow (frame.take 400)).drop i)

theorem corrMag_exact (frame : Samples) (i : ℕ) :
    corrMag numericsExact frame i = (IQ.sum (windowUnderOnes frame i)).abs2 := rfl

/-! ## The samples under the ones (R148, R152) -/

theorem underOnes_eq {rs : BitSeq} {xs : Samples} (h : rs.length ≤ xs.length) :
    underOnes rs xs = ((List.range rs.length).filter (fun n => rs[n]? = some true)).map (xs.getD · IQ.zero) := by
  induction rs generalizing xs with
  | nil => simp
  | cons r rs ih =>
    cases xs with
    | nil => simp at h
    | cons x xs =>
      have htail := ih (Nat.le_of_succ_le_succ h)
      rw [underOnes_cons, htail, List.length_cons, List.range_succ_eq_map, List.filter_cons, List.filter_map]
      cases r <;> simp [Function.comp_def]

theorem underOnes_ref {xs : Samples} {a : ℕ} (h : a + 300 ≤ xs.length) :
    underOnes ref (xs.drop a) = onesInOrder.map (fun n => xs.getD (a + n) IQ.zero) := by
  rw [underOnes_eq (by simp; omega), ref_length, onesInOrder]
  simp [ref_getElem?_eq_true_iff]

theorem IQ_sum_eq (zs : Samples) : IQ.sum zs = ⟨(zs.map (·.re)).sum, (zs.map (·.im)).sum⟩ := by
  have hacc : ∀ a : IQ, zs.foldl IQ.add a = ⟨a.re + (zs.map (·.re)).sum, a.im + (zs.map (·.im)).sum⟩ := by
    induction zs with
    | nil => simp
    | cons z zs ih => simp [ih, IQ.add, add_assoc]
  simp [IQ.sum, hacc, IQ.zero]

theorem IQ_sum_cons (z : IQ) (zs : Samples) : IQ.sum (z :: zs) = IQ.add z (IQ.sum zs) := by
  simp [IQ_sum_eq, IQ.add]

theorem sum_underOnes_ref {xs : Samples} {a : ℕ} (h : a + 300 ≤ xs.length) :
    IQ.sum (underOnes ref (xs.drop a)) = ⟨∑ n ∈ onesOfReference, (xs.getD (a + n) IQ.zero).re,
      ∑ n ∈ onesOfReference, (xs.getD (a + n) IQ.zero).im⟩ := by
  simp [underOnes_ref h, IQ_sum_eq, ← onesInOrder_sum, Function.comp_def]

@[simp] theorem padWindow_length (W : Samples) : (padWindow W).length = W.length + 300 := by
  simp only [padWindow, nOff, List.length_append, List.length_replicate]
  omega

theorem zeros_getD (m k : ℕ) : (List.replicate m IQ.zero).getD k IQ.zero = IQ.zero := by
  rw [List.getD_eq_getElem?_getD, List.getElem?_getD_replicate_default_eq]

/-- Samples with zeros around them, read with zeros outside. -/
theorem zeros_around_getD (a b k : ℕ) (xs : Samples) :
    (List.replicate a IQ.zero ++ xs ++ List.replicate b IQ.zero).getD k IQ.zero =
      if a ≤ k then xs.getD (k - a) IQ.zero else IQ.zero := by
  rw [List.append_assoc]
  by_cases ha : a ≤ k
  · rw [if_pos ha, List.getD_append_right _ _ _ _ (by simpa using ha), List.length_replicate]
    rcases lt_or_ge (k - a) xs.length with hx | hx
    · rw [List.getD_append _ _ _ _ hx]
    · rw [List.getD_append_right _ _ _ _ hx, zeros_getD, List.getD_eq_default _ _ hx]
  · rw [if_neg ha, List.getD_append _ _ _ _ (by simpa using ha), zeros_getD]

theorem padWindow_getD (W : Samples) (k : ℕ) : (padWindow W).getD k IQ.zero =
    if 150 ≤ k ∧ k < W.length + 150 then W.getD (k - 150) IQ.zero else IQ.zero := by
  rw [padWindow, zeros_around_getD, nOff]
  by_cases hk : k < W.length + 150
  · simp only [hk, and_true]
  · rw [List.getD_eq_default _ _ (by omega), ite_self, ite_self]

/-- Settles O49: the samples under the ones are those at the places of the ones, and a value sums them. -/
theorem correlationSumsUnderTheReference : Obligations.CorrelationSumsUnderTheReference := by
  refine ⟨⟨ref_length, onesOfReference_card, fun n hn => ⟨ref_getElem? n hn, ref_repeats_pat n hn⟩⟩,
    fun W _ => correlation_length _ W, fun W i hW hi => ?_⟩
  have hfit : i + 300 ≤ (padWindow W).length := by rw [padWindow_length]; omega
  rw [correlation_getElem? hi, numericsOf_exact, numericsExact_corr, sum_underOnes_ref hfit]
  simp only [padWindow_getD, hW, apply_ite IQ.re, apply_ite IQ.im]
  rfl

/-- Settles O53: the samples under the ones are those at the places of the ones, and the mean is their sum over 150. -/
theorem channelEstimateIsTheMean : Obligations.ChannelEstimateIsTheMean := by
  refine ⟨⟨onesOfReference_card, fun n => ref_getElem?_eq_true_iff.symm⟩, fun frame start hfit => ?_,
    fun num frame start hfit => ?_⟩
  · rw [numericsOf_exact, channelEstimate_exact, sum_underOnes_ref hfit, IQ.divRat]
  · rw [channelEstimate, underOnes_ref hfit, onesInOrder]

/-! ## Products of samples -/

theorem IQ_abs2_mul (g z : IQ) : (IQ.mul g z).abs2 = g.abs2 * z.abs2 := by
  simp only [IQ.abs2, IQ.mul]
  ring

theorem IQ_abs2_pos {z : IQ} (h : z ≠ IQ.zero) : 0 < z.abs2 := by
  have hnn : 0 ≤ z.abs2 := add_nonneg (mul_self_nonneg _) (mul_self_nonneg _)
  refine hnn.lt_of_ne fun h0 => h ?_
  obtain ⟨hre, him⟩ := (mul_self_add_mul_self_eq_zero).1 h0.symm
  cases z
  exact congrArg₂ IQ.mk hre him

@[simp] theorem IQ_mul_zero (g : IQ) : IQ.mul g IQ.zero = IQ.zero := by simp [IQ.mul, IQ.zero]

theorem IQ_mul_add (g a b : IQ) : IQ.mul g (IQ.add a b) = IQ.add (IQ.mul g a) (IQ.mul g b) := by
  simp only [IQ.mul, IQ.add, IQ.mk.injEq]
  constructor <;> ring

theorem IQ_sum_map_mul (g : IQ) (zs : Samples) : IQ.sum (zs.map (IQ.mul g)) = IQ.mul g (IQ.sum zs) := by
  rw [IQ.sum, IQ.sum, List.foldl_map]
  conv_lhs => rw [← IQ_mul_zero g]
  exact List.foldl_hom (IQ.mul g) fun a z => (IQ_mul_add g a z).symm

theorem IQ_mul_divRat (g z : IQ) (d : ℚ) : (IQ.mul g z).divRat d = IQ.mul g (z.divRat d) := by
  simp only [IQ.mul, IQ.divRat, IQ.mk.injEq]
  constructor <;> ring

/-! ## A frame times a constant (R155 (f)) -/

theorem underOnes_map (rs : BitSeq) (xs : Samples) (f : IQ → IQ) : underOnes rs (xs.map f) = (underOnes rs xs).map f := by
  induction rs generalizing xs with
  | nil => simp
  | cons r rs ih =>
    cases xs with
    | nil => rfl
    | cons x xs => cases r <;> simp [underOnes, ih]

theorem padWindow_map_mul (g : IQ) (W : Samples) : padWindow (W.map (IQ.mul g)) = (padWindow W).map (IQ.mul g) := by
  simp [padWindow]

theorem corrMag_map_mul (g : IQ) (frame : Samples) (i : ℕ) :
    corrMag numericsExact (frame.map (IQ.mul g)) i = g.abs2 * corrMag numericsExact frame i := by
  simp only [corrMag_exact, windowUnderOnes, ← List.map_take, padWindow_map_mul, ← List.map_drop, underOnes_map,
    IQ_sum_map_mul, IQ_abs2_mul]

theorem peakIndex_map_mul {g : IQ} (hg : g ≠ IQ.zero) (frame : Samples) :
    peakIndex numericsExact (frame.map (IQ.mul g)) = peakIndex numericsExact frame := by
  rw [peakIndex_eq_iff]
  simp only [corrMag_map_mul, mul_le_mul_iff_right₀ (IQ_abs2_pos hg), mul_lt_mul_iff_right₀ (IQ_abs2_pos hg)]
  exact peakIndex_eq_iff.1 rfl

theorem channelEstimate_map_mul (g : IQ) (frame : Samples) (start : ℕ) :
    channelEstimate numericsExact (frame.map (IQ.mul g)) start =
      IQ.mul g (channelEstimate numericsExact frame start) := by
  simp only [channelEstimate_exact, ← List.map_drop, underOnes_map, IQ_sum_map_mul, IQ_mul_divRat]

/-- Settles O56: all magnitudes are multiplied by one positive number, so the peak stays, and the mean is linear. -/
theorem syncScalesWithTheFrame : Obligations.SyncScalesWithTheFrame := by
  intro g frame s start h hg hnum hd
  rw [delivers_sync_iff rfl, hnum, numericsOf_exact, synchronize_eq_ok_iff] at hd ⊢
  obtain ⟨h400, hfit, hstart, hest⟩ := hd
  exact ⟨by simpa using h400, by simpa using hfit, by rw [peakIndex_map_mul hg, hstart],
    by rw [channelEstimate_map_mul, hest]⟩

/-! ## The search window of a frame (R147, R148) -/

/-- Place `k` of a frame's search window with zeros around it. -/
def windowSample (frame : Samples) (k : ℕ) : IQ :=
  if 150 ≤ k ∧ k < 550 then frame.getD (k - 150) IQ.zero else IQ.zero

theorem padWindow_take_getD {frame : Samples} (h : 400 ≤ frame.length) (k : ℕ) :
    (padWindow (frame.take 400)).getD k IQ.zero = windowSample frame k := by
  rw [padWindow_getD, List.length_take_of_le h, windowSample]
  split_ifs with hk
  · have hlt : k - 150 < 400 := by omega
    rw [List.getD_eq_getElem?_getD, List.getElem?_take_of_lt hlt, List.getD_eq_getElem?_getD]
  · rfl

/-! ## A frame that holds the pattern (R155 (a), (b)) -/

/-- Every sample of the frame is `h` or zero, the samples at the ones of the reference laid at `d` are `h`, those before `d`
zero, and the search window holds the whole pattern. -/
structure HoldsPattern (frame : Samples) (d : ℕ) (h : IQ) : Prop where
  long   : 400 ≤ frame.length
  offset : d ≤ 100
  level  : h ≠ IQ.zero
  values : ∀ k, frame.getD k IQ.zero = IQ.zero ∨ frame.getD k IQ.zero = h
  before : ∀ k < d, frame.getD k IQ.zero = IQ.zero
  ones   : ∀ n ∈ onesOfReference, frame.getD (d + n) IQ.zero = h

/-- A sum of samples that are zero or `h` is `h` times the number of the latter. -/
theorem IQ_sum_of_two_values {h : IQ} (hne : h ≠ IQ.zero) {zs : Samples} (hz : ∀ z ∈ zs, z = IQ.zero ∨ z = h) :
    IQ.sum zs = IQ.mul ⟨zs.count h, 0⟩ h := by
  induction zs with
  | nil => simp [IQ.mul, IQ.zero]
  | cons z zs ih =>
    obtain ⟨hhead, htail⟩ := List.forall_mem_cons.1 hz
    rw [IQ_sum_cons, ih htail]
    rcases hhead with rfl | rfl
    · rw [List.count_cons_of_ne hne.symm]
      simp [IQ.add, IQ.zero]
    · rw [List.count_cons_self]
      simp only [IQ.add, IQ.mul, IQ.mk.injEq, Nat.cast_add_one]
      constructor <;> ring

/-- The reference at level `h` with zeros around it, sample by sample. -/
theorem pattern_getD (d m k : ℕ) (h : IQ) :
    (List.replicate d IQ.zero ++ ref.map (fun b => if b then h else IQ.zero) ++ List.replicate m IQ.zero).getD k IQ.zero =
      if d ≤ k ∧ k - d ∈ onesOfReference then h else IQ.zero := by
  rw [zeros_around_getD, List.getD_eq_getElem?_getD, List.getElem?_map]
  rcases lt_or_ge (k - d) 300 with h300 | h300
  · rw [ref_getElem? _ h300]
    by_cases hd : d ≤ k <;> simp [hd]
  · have hout : k - d ∉ onesOfReference := fun hm => (lt_of_mem_onesOfReference hm).not_ge h300
    simp [hout, h300]

namespace HoldsPattern

section
variable {frame : Samples} {d : ℕ} {h : IQ} (hp : HoldsPattern frame d h)
include hp

theorem windowUnderOnes_eq {i : ℕ} (hi : i < 400) :
    windowUnderOnes frame i = onesInOrder.map fun n => windowSample frame (i + n) := by
  have hlen : (frame.take 400).length = 400 := List.length_take_of_le hp.long
  rw [windowUnderOnes, underOnes_ref (by rw [padWindow_length, hlen]; omega)]
  exact List.map_congr_left fun n _ => padWindow_take_getD hp.long (i + n)

theorem windowUnderOnes_two_values {i : ℕ} (hi : i < 400) : ∀ z ∈ windowUnderOnes frame i, z = IQ.zero ∨ z = h := by
  rw [hp.windowUnderOnes_eq hi, List.forall_mem_map]
  intro n _
  rw [windowSample]
  split
  · exact hp.values _
  · exact .inl rfl

/-- A magnitude is the square of the number of level samples under the ones, times that of the level. -/
theorem corrMag_eq {i : ℕ} (hi : i < 400) :
    corrMag numericsExact frame i = ((windowUnderOnes frame i).count h : ℚ) ^ 2 * h.abs2 := by
  rw [corrMag_exact, IQ_sum_of_two_values hp.level (hp.windowUnderOnes_two_values hi), IQ_abs2_mul]
  simp [IQ.abs2, sq]

theorem windowUnderOnes_length {i : ℕ} (hi : i < 400) : (windowUnderOnes frame i).length = 150 := by
  rw [hp.windowUnderOnes_eq hi, List.length_map, onesInOrder_length]

theorem count_le {i : ℕ} (hi : i < 400) : (windowUnderOnes frame i).count h ≤ 150 :=
  List.count_le_length.trans_eq (hp.windowUnderOnes_length hi)

theorem count_eq_iff {i : ℕ} (hi : i < 400) :
    (windowUnderOnes frame i).count h = 150 ↔ ∀ n ∈ onesOfReference, windowSample frame (i + n) = h := by
  have hall := List.count_eq_length (a := h) (l := windowUnderOnes frame i)
  rw [hp.windowUnderOnes_length hi] at hall
  rw [hall, hp.windowUnderOnes_eq hi, List.forall_mem_map]
  simp only [mem_onesInOrder, eq_comm]

/-- Before the pattern's own place the reference's one at 0 lies over a zero. -/
theorem count_lt {i : ℕ} (hi : i < 150 + d) : (windowUnderOnes frame i).count h < 150 := by
  have hoff := hp.offset
  have hi400 : i < 400 := by omega
  have hzero : windowSample frame i = IQ.zero := by
    rw [windowSample]
    split
    · exact hp.before _ (by omega)
    · rfl
  refine (hp.count_le hi400).lt_of_ne fun heq => hp.level ?_
  rw [← hzero]
  exact ((hp.count_eq_iff hi400).1 heq 0 (by simp [onesOfReference])).symm

/-- At its own place all ones lie over the level. -/
theorem count_eq : (windowUnderOnes frame (150 + d)).count h = 150 := by
  have hoff := hp.offset
  refine (hp.count_eq_iff (by omega)).2 fun n hn => ?_
  have hn300 : n < 300 := lt_of_mem_onesOfReference hn
  have hindex : 150 + d + n - 150 = d + n := by omega
  rw [windowSample, if_pos (by omega), hindex, hp.ones n hn]

theorem peakIndex_eq : peakIndex numericsExact frame = 150 + d := by
  have hoff := hp.offset
  have hlevel := IQ_abs2_pos hp.level
  have hpeak : 150 + d < 400 := by omega
  refine peakIndex_eq_iff.2 ⟨hpeak, fun j hj => ?_⟩
  rw [hp.corrMag_eq hj, hp.corrMag_eq hpeak, hp.count_eq]
  constructor
  · have hle := hp.count_le hj
    gcongr
  · intro hlt
    have hlt := hp.count_lt hlt
    gcongr

theorem channelEstimate_eq : channelEstimate numericsExact frame d = h := by
  have hoff := hp.offset
  have hlong := hp.long
  have hsum : ∀ f : IQ → ℚ, ∑ n ∈ onesOfReference, f (frame.getD (d + n) IQ.zero) = 150 * f h := fun f => by
    rw [Finset.sum_congr rfl fun n hn => congrArg f (hp.ones n hn), Finset.sum_const, onesOfReference_card, nsmul_eq_mul]
    norm_num
  rw [channelEstimate_exact, sum_underOnes_ref (by omega), hsum IQ.re, hsum IQ.im]
  simp [IQ.divRat]

theorem synchronize_eq : synchronize numericsExact frame = .ok (d, h) := by
  have hoff := hp.offset
  have hlong := hp.long
  refine synchronize_eq_ok_iff.2 ⟨hlong, by omega, ?_, hp.channelEstimate_eq⟩
  rw [hp.peakIndex_eq]
  omega

end

/-- A constant frame holds the pattern at 0. -/
theorem of_replicate {n : ℕ} {z : IQ} (hn : 400 ≤ n) (hz : z ≠ IQ.zero) : HoldsPattern (List.replicate n z) 0 z where
  long := by simpa using hn
  offset := Nat.zero_le _
  level := hz
  values k := by
    rcases lt_or_ge k n with hk | hk
    · exact .inr (List.getD_replicate _ hk)
    · exact .inl (List.getD_eq_default _ _ (by simpa using hk))
  before k hk := absurd hk (Nat.not_lt_zero k)
  ones m hm := by
    have hm300 : m < 300 := lt_of_mem_onesOfReference hm
    exact List.getD_replicate _ (by omega)

theorem of_pattern {n d : ℕ} {h : IQ} (hd : d ≤ 100) (hn : 400 ≤ n) (hne : h ≠ IQ.zero) :
    HoldsPattern (List.replicate d IQ.zero ++ ref.map (fun b => if b then h else IQ.zero) ++
      List.replicate (n - d - 300) IQ.zero) d h where
  long := by
    simp only [List.length_append, List.length_map, ref_length, List.length_replicate]
    omega
  offset := hd
  level := hne
  values k := by
    rw [pattern_getD]
    split
    · exact .inr rfl
    · exact .inl rfl
  before k hk := by
    rw [pattern_getD, if_neg (by omega)]
  ones m hm := by
    rw [pattern_getD, if_pos ⟨Nat.le_add_right d m, by rwa [Nat.add_sub_cancel_left]⟩]

end HoldsPattern

/-- Settles O54: a constant other than zero is the pattern at 0 with that level; the zero frame has its own lemma. -/
theorem syncOfAConstantFrame : Obligations.SyncOfAConstantFrame := by
  intro n z s hn hnum
  refine ⟨?_, fun hz => (HoldsPattern.of_replicate hn hz).peakIndex_eq⟩
  rw [delivers_sync_iff rfl, hnum, numericsOf_exact]
  by_cases hz : z = IQ.zero
  · exact hz ▸ synchronize_zeros hn
  · exact (HoldsPattern.of_replicate hn hz).synchronize_eq

/-- Settles O55: the frame holds the pattern at `d`. -/
theorem syncFindsThePattern : Obligations.SyncFindsThePattern := by
  intro n d h s hd hn hne hnum
  rw [delivers_sync_iff rfl, hnum, numericsOf_exact]
  exact (HoldsPattern.of_pattern hd hn hne).synchronize_eq

end Sys2Proof.Machine
end

section
/-! PROOF. The errors (spec/60_exceptions.md): O12 to O15. An operation that ends has status OK or has raised one error, and which
errors an operation raises is said once (`exec_raisedBy`): an operand's `InvalidParameter`, SELECT's first failing check, or
SYNC's `InsufficientSamples`. -/

namespace Sys2Proof.Machine

/-! ## Success or error (R160) -/

/-- Settles O12: whatever an operation wrote before it ended, `finish` delivers the one response. -/
theorem everyOperationDeliversOneResponse : Obligations.EveryOperationDeliversOneResponse := by
  intro i s t h
  cases exec_next_cases h with
  | error e _ ht =>
    subst ht
    exact ⟨errorResponse e, finish_endsWith rfl rfl rfl, fun _ => rfl⟩
  | result _ _ ht | waveform _ _ _ ht | reset _ ht | cfg _ _ _ _ _ ht | extract _ _ _ _ _ _ ht =>
    subst ht
    exact ⟨okResponse _, finish_endsWith rfl rfl rfl, (absurd rfl ·)⟩

/-- An operation that ends has succeeded, or has raised one of the errors that operations raise. -/
theorem exec_ok_or_raise {i : Instr} {s t : State} (h : exec i s = .next t) :
    t.status = statusOk ∨ ∃ e, Raisable e ∧ t.status = failureStatus e ∧ exec i s = raise e s := by
  cases exec_next_cases h with
  | error e he ht => exact .inr ⟨e, he, by rw [ht, finish_status], by rw [h, ht, raise]⟩
  | result _ _ ht | waveform _ _ _ ht | reset _ ht | cfg _ _ _ _ _ ht | extract _ _ _ _ _ _ ht =>
    exact .inl (by rw [ht, finish_status])

/-- A status other than OK comes from an error. -/
theorem exec_raise_of_kind {i : Instr} {s t : State} (h : exec i s = .next t) (hk : t.status.kind ≠ .ok) :
    ∃ e, t.status = failureStatus e ∧ exec i s = raise e s := by
  obtain hok | ⟨e, -, hraise⟩ := exec_ok_or_raise h
  · rw [hok] at hk
    exact absurd rfl hk
  · exact ⟨e, hraise⟩

theorem failureStatus_kind_of_field {e : Failure} (h : (failureStatus e).field ≠ .none) :
    (failureStatus e).kind = .invalidParameter := by
  cases e with
  | invalid f a => rfl
  | maskLength | tooFewSamples => exact absurd rfl h

/-- Settles O13: the error was raised in the state the operation began in. -/
theorem errorsChangeOnlyTheStatus : Obligations.ErrorsChangeOnlyTheStatus := by
  intro i s t h hk
  obtain ⟨e, hst, he⟩ := exec_raise_of_kind h hk
  obtain ⟨t', ht', hend, hkeep⟩ := raises_of_raise he
  obtain rfl : t' = t := Host.Outcome.next.inj (ht'.symm.trans h)
  refine ⟨hkeep, hend.busy, hend.fb, hend.inbox, hend.params, ?_, errorResponse e, hend.outbox, hst.symm, rfl⟩
  rw [hst]
  exact failureStatus_kind_of_field

/-! ## The checks an error comes from (R101, R113) -/

/-- The error of the first check that fails is one of the checks' own. -/
theorem firstBad_of_forall {P : Failure → Prop} {checks : List (Bool × Failure)} {e : Failure}
    (hP : ∀ c ∈ checks, P c.2) (h : firstBad checks = some e) : P e := by
  induction checks with
  | nil => cases h
  | cons c checks ih =>
    obtain ⟨hc, hrest⟩ := List.forall_mem_cons.1 hP
    obtain ⟨_ | _, e'⟩ := c
    · cases h
      exact hc
    · exact ih hrest h

theorem firstBad_append (xs ys : List (Bool × Failure)) : firstBad (xs ++ ys) = (firstBad xs).or (firstBad ys) := by
  induction xs with
  | nil => rfl
  | cons c xs ih =>
    obtain ⟨_ | _, e⟩ := c
    · rfl
    · exact ih

/-- Where validation passes on checks that all hold, its error is the first failing check's. -/
theorem FailsBy.firstBad_eq {α : Type} {x : Except Failure α} {checks : List (Bool × Failure)} {e : Failure}
    (hx : FailsBy x checks) (hok : firstBad checks = none → ∃ a, x = .ok a) (h : x = .error e) :
    firstBad checks = some e := by
  cases hb : firstBad checks with
  | none =>
    obtain ⟨a, ha⟩ := hok hb
    cases ha.symm.trans h
  | some e' => cases (hx e' hb).symm.trans h; rfl

theorem firstBad_of_validateQuery_error {dr : ℚ} {m : ℤ} {trext : Bool} {sel session target : String} {q : ℤ}
    {e : Failure} (h : validateQuery dr m trext sel session target q = .error e) :
    firstBad (queryChecks dr m sel session target q) = some e :=
  (validateQuery_failsBy trext).firstBad_eq (fun hb => (validateQuery_of_legal trext hb).imp fun _ hf => hf.1) h

theorem firstBad_of_validateSelect_error {wPtr : Option ℕ} {target : String} {action : ℤ} {membank : String}
    {pointer length : ℤ} {mask : BitSeq} {truncate : Bool} {dr : ℚ} {e : Failure}
    (h : validateSelect wPtr target action membank pointer length mask truncate dr = .error e) :
    firstBad (selectChecks wPtr target action membank pointer length mask dr) = some e := by
  refine (validateSelect_failsBy truncate).firstBad_eq (fun hb => ?_) h
  obtain ⟨f, d, hok, -⟩ := validateSelect_of_legal truncate hb
  exact ⟨(f, d), hok⟩

theorem firstBad_of_validateQueryAdjust_error {layout : QadjLayout} {session : Option String} {updn : String} {dr : ℚ}
    {e : Failure} (h : validateQueryAdjust layout session updn dr = .error e) :
    firstBad (queryAdjustChecks layout session updn dr) = some e := by
  refine validateQueryAdjust_failsBy.firstBad_eq (fun hb => ?_) h
  obtain ⟨f, d, hok, -⟩ := validateQueryAdjust_of_legal hb
  exact ⟨(f, d), hok⟩

/-- An error that names an operand's field (R161). -/
def NamesField (e : Failure) : Prop := ∃ f a, e = .invalid f a

theorem need_namesField {α : Type} {f : Field} {al : AllowedSet} {o : Option α} {e : Failure}
    (h : need f al o = .error e) : NamesField e :=
  ⟨f, al, (need_eq_error_iff.1 h).2⟩

theorem validateQuery_namesField {dr : ℚ} {m : ℤ} {trext : Bool} {sel session target : String} {q : ℤ} {e : Failure}
    (h : validateQuery dr m trext sel session target q = .error e) : NamesField e :=
  firstBad_of_forall (by simp [queryChecks, NamesField]) (firstBad_of_validateQuery_error h)

theorem validateQueryAdjust_namesField {layout : QadjLayout} {session : Option String} {updn : String} {dr : ℚ}
    {e : Failure} (h : validateQueryAdjust layout session updn dr = .error e) : NamesField e := by
  refine firstBad_of_forall ?_ (firstBad_of_validateQueryAdjust_error h)
  cases layout <;> simp [queryAdjustChecks, NamesField]

/-! ## Who raises what (R161, R162, R165) -/

/-- The errors an instruction can end with under the model parameters: a named field, where its operands have domains; SELECT's
first failing check; too few samples, for SYNC. -/
inductive RaisedBy (p : Params) (e : Failure) : Instr → Prop where
  | ebv (value : ℤ) (h : NamesField e) : RaisedBy p e (.ebv value)
  | piePreamble (blf dr : ℚ) (h : NamesField e) : RaisedBy p e (.piePreamble blf dr)
  | queryrep (session : String) (h : NamesField e) : RaisedBy p e (.queryrep session)
  | query (dr : ℚ) (m : ℤ) (trext : Bool) (sel session target : String) (q : ℤ) (blf : ℚ) (h : NamesField e) :
      RaisedBy p e (.query dr m trext sel session target q blf)
  | select (target : String) (action : ℤ) (membank : String) (pointer length : ℤ) (mask : BitSeq) (truncate : Bool)
      (blf dr : ℚ) (h : firstBad (selectChecks p.wPtr target action membank pointer length mask dr) = some e) :
      RaisedBy p e (.select target action membank pointer length mask truncate blf dr)
  | queryadjust (session : Option String) (updn : String) (blf dr : ℚ) (h : NamesField e) :
      RaisedBy p e (.queryadjust session updn blf dr)
  | sync (arg : FrameArg) (h : e = .tooFewSamples) : RaisedBy p e (.sync arg)

/-- The response of an error determines it. -/
theorem errorResponse_injective : Function.Injective errorResponse := by
  intro e e' h
  cases e with
  | invalid f a => cases e' <;> cases h; rfl
  | maskLength | tooFewSamples => cases e' <;> cases h; rfl

theorem raise_inj {e e' : Failure} {s : State} (h : raise e s = raise e' s) : e = e' := by
  have hout : s.outbox ++ [errorResponse e] = s.outbox ++ [errorResponse e'] :=
    congrArg State.outbox (Host.Outcome.next.inj h)
  exact errorResponse_injective (List.singleton_inj.1 (List.append_cancel_left hout))

theorem respond_ne_raise {r : Result} {s s₁ : State} {e : Failure} : respond r s₁ ≠ raise e s := by
  intro h
  have hst : statusOk = failureStatus e := congrArg State.status (Host.Outcome.next.inj h)
  exact failureStatus_kind e (by rw [← hst, statusOk])

theorem transmit_ne_raise {pre : Except Refusal (Timing × Waveform)} {fb : BitSeq} {s : State} {e : Failure} :
    transmit pre fb s ≠ raise e s := by
  rcases pre with r | ⟨t, wf⟩
  · exact nofun
  · exact respond_ne_raise

/-- An error that an instruction ends with is one it can raise. -/
theorem exec_raisedBy {i : Instr} {s : State} {e : Failure} (h : exec i s = raise e s) : RaisedBy s.params e i := by
  cases i with
  | ebv value =>
    simp only [exec, execEbv] at h
    split at h
    · exact .ebv value (raise_inj h ▸ need_namesField ‹_›)
    · exact absurd h respond_ne_raise
  | piePreamble blf dr =>
    simp only [exec, execPiePreamble] at h
    split at h
    · exact .piePreamble blf dr (raise_inj h ▸ need_namesField ‹_›)
    · split at h
      · cases h
      · exact absurd h respond_ne_raise
  | query dr m trext sel session target q blf =>
    simp only [exec, execQuery] at h
    split at h
    · exact .query _ _ _ _ _ _ _ _ (raise_inj h ▸ validateQuery_namesField ‹_›)
    · exact absurd h transmit_ne_raise
  | queryrep session =>
    simp only [exec, execQueryrep] at h
    split at h
    · exact .queryrep session (raise_inj h ▸ need_namesField ‹_›)
    · exact absurd h transmit_ne_raise
  | select target action membank pointer length mask truncate blf dr =>
    simp only [exec, execSelect] at h
    split at h
    · exact .select _ _ _ _ _ _ _ _ _ (raise_inj h ▸ firstBad_of_validateSelect_error ‹_›)
    · exact absurd h transmit_ne_raise
  | queryadjust session updn blf dr =>
    simp only [exec, execQueryadjust] at h
    split at h
    · exact .queryadjust _ _ _ _ (raise_inj h ▸ validateQueryAdjust_namesField ‹_›)
    · exact absurd h transmit_ne_raise
  | sync arg =>
    simp only [exec, execSync] at h
    split at h
    · cases h
    · split at h
      · exact .sync arg (raise_inj h ▸ synchronize_raises ‹_›)
      · exact absurd h respond_ne_raise
  | reset | crc5 _ | crc16 _ => exact absurd h respond_ne_raise
  | cfgWrite _ _ | pieEncode _ | pieFramesync =>
    simp only [exec, execCfgWrite, execPieEncode, execPieFramesync] at h
    split at h
    · cases h
    · exact absurd h respond_ne_raise
  | extract nMaxGap nT1 nRn16 =>
    simp only [exec, execExtract] at h
    split at h
    · cases h
    · split at h
      · cases h
      · exact absurd h respond_ne_raise
  | queryFrame _ _ | queryrepFrame _ | selectFrame _ _ | queryadjustFrame _ _ | queryadjustTable7 _ => cases h

/-- The first failing check of SELECT is never SYNC's error. -/
theorem firstBad_selectChecks_ne_tooFewSamples {wPtr : Option ℕ} {target : String} {action : ℤ} {membank : String}
    {pointer length : ℤ} {mask : BitSeq} {dr : ℚ} {e : Failure}
    (h : firstBad (selectChecks wPtr target action membank pointer length mask dr) = some e) : e ≠ .tooFewSamples :=
  firstBad_of_forall (P := (· ≠ .tooFewSamples)) (by simp [selectChecks]) h

/-- The five checks before the mask name a field, so SELECT's first failing check is the mask's exactly when they hold and the
mask's does not (R105, R162). -/
theorem firstBad_selectChecks_eq_maskLength_iff {wPtr : Option ℕ} {target : String} {action : ℤ} {membank : String}
    {pointer length : ℤ} {mask : BitSeq} {dr : ℚ} :
    firstBad (selectChecks wPtr target action membank pointer length mask dr) = some .maskLength ↔
      (mask.length : ℤ) ≠ length ∧
      firstBad ((selectChecks wPtr target action membank pointer length mask dr).take 5) = none := by
  rw [← List.take_append_drop 5 (selectChecks wPtr target action membank pointer length mask dr), firstBad_append,
    List.take_append_drop]
  cases hbefore : firstBad ((selectChecks wPtr target action membank pointer length mask dr).take 5) with
  | none => by_cases hmask : (mask.length : ℤ) = length <;> simp [selectChecks, firstBad, hmask]
  | some e =>
    have hne : e ≠ .maskLength := firstBad_of_forall (P := (· ≠ .maskLength)) (by simp [selectChecks]) hbefore
    simp [hne]

/-- Settles O14: the status is OK's or that of an error that the instruction can raise. -/
theorem errorKindsHaveTheirRaisers : Obligations.ErrorKindsHaveTheirRaisers := by
  intro i s t h
  obtain hok | ⟨e, hraisable, hst, he⟩ := exec_ok_or_raise h
  · simp [hok, statusOk]
  rw [hst]
  cases exec_raisedBy he with
  | sync arg hfew =>
    subst hfew
    simp [failureStatus]
  | select _ _ _ _ _ _ _ _ _ hbad =>
    cases e with
    | invalid f a =>
      obtain ⟨-, htrext, hmask, htruncate⟩ := hraisable
      simp [failureStatus, htrext, hmask, htruncate]
    | maskLength => simp [failureStatus]
    | tooFewSamples => exact absurd rfl (firstBad_selectChecks_ne_tooFewSamples hbad)
  | ebv _ hf | piePreamble _ _ hf | queryrep _ hf | query _ _ _ _ _ _ _ _ hf | queryadjust _ _ _ _ hf =>
    obtain ⟨f, a, rfl⟩ := hf
    obtain ⟨-, htrext, hmask, htruncate⟩ := hraisable
    simp [failureStatus, htrext, hmask, htruncate]

theorem failureStatus_kind_eq_mask_iff {e : Failure} :
    (failureStatus e).kind = .maskLengthMismatch ↔ e = .maskLength := by
  cases e <;> simp [failureStatus]

/-- Settles O15: only SELECT's checks have the mask's error, and it is the first that fails exactly under these conditions. -/
theorem maskMismatchIsRaisedBySelectOnly : Obligations.MaskMismatchIsRaisedBySelectOnly := by
  refine ⟨fun i s t h hk => ?_, fun target action membank pointer length mask truncate blf dr s hmask hbefore => ?_⟩
  · obtain ⟨e, hst, he⟩ := exec_raise_of_kind h (by simp [hk])
    obtain rfl := failureStatus_kind_eq_mask_iff.1 (hst ▸ hk)
    refine ⟨by rw [hst, failureStatus], ?_⟩
    cases exec_raisedBy he with
    | select target action membank pointer length mask truncate blf dr hbad =>
      obtain ⟨hmask, hbefore⟩ := firstBad_selectChecks_eq_maskLength_iff.1 hbad
      exact ⟨target, action, membank, pointer, length, mask, truncate, blf, dr, rfl, hmask, hbefore⟩
    | sync _ hsync => cases hsync
    | ebv _ hf | piePreamble _ _ hf | queryrep _ hf | query _ _ _ _ _ _ _ _ hf | queryadjust _ _ _ _ hf =>
      obtain ⟨f, a, hfield⟩ := hf
      cases hfield
  · exact selectReportsTheFirstBadField _ _ _ _ _ _ _ _ _ s _
      (firstBad_selectChecks_eq_maskLength_iff.2 ⟨hmask, hbefore⟩)

end Sys2Proof.Machine
end

section
/-! PROOF. Reset and power-up (spec/70_reset_and_hazards.md R185, R194): O8 and O22. RESET has no check and no stop, so it ends in one
state from every state; and a step takes nothing but what the host has asked for. -/

namespace Sys2Proof.Machine

/-! ## RESET (R185) -/

/-- RESET succeeds in every state: it is the one write of `resetBlock`, then the common end of an operation. -/
theorem exec_reset (s : State) : exec .reset s = .next (finish statusOk none .nothing (resetBlock s)) := rfl

/-- Settles O22: what `resetBlock` writes, the end of the operation leaves as it is, and the capture is not among it. -/
theorem resetClearsTheBlock : Obligations.ResetClearsTheBlock := by
  intro s
  have hends : EndsWith s (finish statusOk none .nothing (resetBlock s)) (okResponse .nothing) :=
    finish_endsWith (resetBlock_outbox s) (resetBlock_inbox s) (resetBlock_params s)
  refine ⟨_, exec_reset s, hends, ?cfg, ?tx, ?frames, ?dcWindows, ?capture⟩
  case cfg => rw [finish_cfg, resetBlock_cfg, State.reset]
  case tx => rw [finish_mem, resetBlock_tx]
  case frames => rw [finish_mem, resetBlock_frames]
  case dcWindows => rw [finish_mem, resetBlock_dcWindows]
  case capture => rw [finish_mem, resetBlock_capture]

/-! ## Nothing starts by itself (R194, R204) -/

/-- Without a pending move the turn is idle, whatever `busy` is. -/
theorem step_of_inbox_nil {s : State} (hin : s.inbox = []) : step s = .next s := by
  simp [step, fetch, hin]

/-- Settles O8: no turn but the idle one comes from an empty port, power-up leaves the port empty, and RESET ends as O22 says. -/
theorem noOperationStartsByItself : Obligations.NoOperationStartsByItself := by
  refine ⟨fun s hin => step_of_inbox_nil hin, ⟨rfl, rfl, step_of_inbox_nil rfl⟩, fun s => ?_⟩
  obtain ⟨t, hexec, hends, -, htx, -⟩ := resetClearsTheBlock s
  exact ⟨t, hexec, htx, hends.inbox, hends.outbox⟩

end Sys2Proof.Machine
end
